-- ==== Sys2Proof/Word.lean ====
section
/-!
DEFINITION. The words of the FK-2432's two byte interfaces (11 R186 to R188).
-/

namespace Sys2Proof

/-- One byte of a command record, a response record or a link message. -/
abbrev Byte := BitVec 8

/-- A two-byte field, sent most significant byte first (R186). -/
abbrev Half := BitVec 16

end Sys2Proof
end

