-- ==== Sys2Proof/Config.lean ====
section
/-!
DEFINITION. What the part fixes (capacities and depths, R170) and the values the spec leaves open.
-/

namespace Sys2Proof.Config

/-- The part code of IDENTIFY (R188). -/
def partCode : Nat := 0x2432
/-- Group handles G0 to G4095 (R9). -/
def groupCapacity : Nat := 4096
/-- Adjacency handles A0 to A8191 (R3). -/
def adjCapacity : Nat := 8192
/-- Uplinks and monitors U0 to U31. -/
def uplinks : Nat := 32
/-- Loss-of-light lines LOS0 to LOS15. -/
def losLines : Nat := 16
/-- Forwarding-chip ports P0 to P127. -/
def ports : Nat := 128
/-- Entries of the dependency pool (R14). -/
def poolSize : Nat := 16384
/-- Depth of the command queue and of the response queue (R163, R166). -/
def queueDepth : Nat := 16
/-- Depth of the answer queue and size of the credit grant (R48, R181). -/
def answerDepth : Nat := 64
/-- Bytes of the largest command record (R163). -/
def recordBytes : Nat := 256
/-- The most operations the walker performs while a command waits (R146). -/
def maxWalkerRun : Nat := 8

/-- FREE VALUE (log entry 8): the rank by which monitor `n` takes the `k`-th event that several monitors
take at one instant. The spec gives no order among them (R94; section 7.9 allows either order). -/
opaque arrivalRank : Nat → Nat → Nat

end Sys2Proof.Config
end

