-- ==== Sys2Proof/Syntax.lean ====
section
/-!
DEFINITION. The commands of the FK-2432: one constructor of `Instr` for each row of spec/opcode_table.json, and
`HostCmd`, the command a command record carries (R163, R188). A field of a host command has the width R188 gives it
and holds what the host wrote, in range or not; a row that is an event of one monitor, line or port names it.
-/

namespace Sys2Proof

/-- The two start markers of a link message (R183, R187; log entry 38). -/
inductive Marker where
  | request
  | general
deriving DecidableEq, Repr

/-- Where a host write that the port ignores goes (R161). -/
inductive IgnoredTarget where
  | statusWord
  | responseWindow
  | unused (offset : Nat)
deriving DecidableEq, Repr

/-- One member entry of a GROUP_WRITE record (R188). -/
structure MemberArg where
  adj : Half
  weight : Byte
  enabled : Byte
deriving DecidableEq, Repr

/-- The arguments of GROUP_WRITE (R17, R188). The member count field is the length of `members`. -/
structure GroupArgs where
  group : Half
  bucketClass : Byte
  stripe : Byte
  offset : Half
  backup : Half
  policy : Byte
  notify : Byte
  members : List MemberArg
deriving DecidableEq, Repr

/-- The arguments of MONITOR_WRITE, in the order of R188. -/
structure MonitorArgs where
  monitor : Byte
  losLine : Byte
  boundPort : Byte
  session : Byte
  localDisc : Half
  remoteDisc : Half
  matchMask : Half
  losReaction : Byte
  portReaction : Byte
  peerReaction : Byte
  latchMode : Byte
  echoLos : Byte
  echoPort : Byte
  drain : Byte
  signal : Byte
  priority : Byte
  holdBase : Half
  flapWindow : Half
  qualifyTime : Half
  txInterval : Half
  minRx : Half
  qualifyCount : Byte
  missWeight : Byte
  errorWeight : Byte
  recoveryStep : Byte
  downAt : Byte
  suspectAt : Byte
  clearAt : Byte
deriving DecidableEq, Repr

/-- The command a record names, with its argument fields (R188). -/
inductive HostCmd where
  | identify
  | adjWrite (adj : Half) (port : Byte) (rewrite : Half) (uplink : Byte)
  | adjDelete (adj : Half)
  | adjRead (adj : Half)
  | groupWrite (args : GroupArgs)
  | groupDelete (group : Half)
  | groupRead (group : Half)
  | memberSet (group : Half) (index : Byte) (enabled : Byte)
  | depletedList (start : Half)
  | resolveTest (group : Half) (hash : Half)
  | monitorWrite (args : MonitorArgs)
  | monitorRead (monitor : Byte) (clear : Byte)
  | enable (monitor : Byte)
  | disable (monitor : Byte)
  | forceDown (monitor : Byte)
  | release (monitor : Byte)
  | clearLatch (monitor : Byte)
  | evidenceWrite (target : Byte) (index : Byte) (assertFilter : Half) (clearFilter : Half) (guardTime : Half)
  | evidenceRead (target : Byte) (index : Byte) (clear : Byte)
  | jobStatus
  | auditSet (interval : Half)
  | countersRead (clear : Byte)
  | eventConfig (first : Byte) (last : Byte) (mask : Byte) (cls : Byte) (discard : Byte)
  | eventFetch (cls : Byte)
deriving DecidableEq, Repr

/-- The commands, one constructor for each row of spec/opcode_table.json. -/
inductive Instr where
  | deviceReset (levels : BitVec 16)
  | rppReset
  | commandWindowWrite (bytes : List Byte)
  | responseWindowRead (length : Nat)
  | ignoredWrite (target : IgnoredTarget)
  | commandTake
  | identify (tag : Half)
  | adjWrite (tag : Half) (adj : Half) (port : Byte) (rewrite : Half) (uplink : Byte)
  | adjDelete (tag : Half) (adj : Half)
  | adjRead (tag : Half) (adj : Half)
  | groupWrite (tag : Half) (args : GroupArgs)
  | groupDelete (tag : Half) (group : Half)
  | groupRead (tag : Half) (group : Half)
  | memberSet (tag : Half) (group : Half) (index : Byte) (enabled : Byte)
  | depletedList (tag : Half) (start : Half)
  | resolveTest (tag : Half) (group : Half) (hash : Half)
  | monitorWrite (tag : Half) (args : MonitorArgs)
  | monitorRead (tag : Half) (monitor : Byte) (clear : Byte)
  | enable (tag : Half) (monitor : Byte)
  | disable (tag : Half) (monitor : Byte)
  | forceDown (tag : Half) (monitor : Byte)
  | release (tag : Half) (monitor : Byte)
  | clearLatch (tag : Half) (monitor : Byte)
  | evidenceWrite (tag : Half) (target : Byte) (index : Byte) (assertFilter : Half) (clearFilter : Half) (guardTime : Half)
  | evidenceRead (tag : Half) (target : Byte) (index : Byte) (clear : Byte)
  | jobStatus (tag : Half)
  | auditSet (tag : Half) (interval : Half)
  | countersRead (tag : Half) (clear : Byte)
  | eventConfig (tag : Half) (first : Byte) (last : Byte) (mask : Byte) (cls : Byte) (discard : Byte)
  | eventFetch (tag : Half) (cls : Byte)
  | receiveSignalPresent
  | trainingComplete
  | lossOfLock
  | resolveReq (tag : Byte) (group : Half) (hash : Half)
  | badMessage (marker : Marker) (frame : List Byte)
  | portNotice (port : Byte) (kind : Byte)
  | probeArrival (port : Byte) (peerState : BitVec 2) (mine : Half) (yours : Half) (txInterval : Half)
  | resolveAns
  | transmitListSend
  | losRawChange (line : Fin 16) (asserted : Bool)
  | losFilterTimerExpiry (line : Fin 16)
  | qualifyTimerExpiry (monitor : Fin 32)
  | holdDownExpiry (monitor : Fin 32)
  | arrivalTimerExpiry (monitor : Fin 32)
  | sendTimerExpiry (monitor : Fin 32)
  | decayTimerExpiry (monitor : Fin 32)
  | guardTimerExpiry (port : Fin 128)
  | auditTimerExpiry
  | jobStep
  | dependencyRebuild
  | rebuildStep
  | auditStep
  | symbolLock
  | vectorMessageSend
deriving DecidableEq, Repr

end Sys2Proof
end

