-- ==== Sys2Proof/Decode.lean ====
section
/-!
DEFINITION. No row of spec/opcode_table.json gives bits (each row's "fields" is empty): the block's commands are writes,
reads, messages and events, not words. So no word spells a command (log entry 2). The command records of the host have
their own reading, `parseRecord` in Machine/Operands.lean.
-/

namespace Sys2Proof

/-- The command a word spells by the table's bits: none, since the table gives no bits. -/
def decodeTableWord (_nbits _w : Nat) : Option Instr := none

end Sys2Proof
end

