-- ==== Sys2Proof/Machine/State.lean ====
section
/-!
DEFINITION. The state of the FK-2432, block by block (00 scope, block table), as plain data; the reasons a step can
stop; and the state after device reset. Times are instants of the 1 us time base.
-/

namespace Sys2Proof.Machine

open Sys2Proof

/-- A table of records by number. An unlisted number holds the record of device reset. -/
abbrev Table (α : Type) := List (Nat × α)

/-! ### Adjacency table and group table (chapter 1) -/

/-- Status of an adjacency (R3). -/
inductive AdjStatus where
  | invalid
  | valid
  | damaged
deriving DecidableEq, Repr

/-- An adjacency record (R3). -/
structure Adj where
  status : AdjStatus := .invalid
  port : Nat := 0
  rewrite : Nat := 0
  uplink : Option Nat := none
  refs : Nat := 0
deriving DecidableEq, Repr

/-- Status of a group (R9). -/
inductive GroupStatus where
  | notInstalled
  | installed
  | damaged
deriving DecidableEq, Repr

/-- Stripe mode (R9). -/
inductive Stripe where
  | contiguous
  | round
  | pairs
deriving DecidableEq, Repr

/-- Empty policy (R9). -/
inductive Policy where
  | discard
  | punt
deriving DecidableEq, Repr

/-- Bucket count class (R9, R188). -/
inductive BucketCount where
  | b16
  | b32
  | b64
deriving DecidableEq, Repr

/-- A member record (R11). -/
structure Member where
  adj : Nat
  weight : Nat
  enabled : Bool
  withdrawn : Bool
  homeCount : Nat
deriving DecidableEq, Repr

/-- A bucket record: two member indices (R12). -/
structure Bucket where
  home : Nat
  current : Nat
deriving DecidableEq, Repr

/-- A group record (R9). Rebuild pending is membership of `Rck.rebuildList` (R158). -/
structure Group where
  status : GroupStatus := .notInstalled
  bucketCount : BucketCount := .b16
  stripe : Stripe := .contiguous
  offset : Nat := 0
  backup : Option Nat := none
  policy : Policy := .discard
  notify : Bool := false
  liveCount : Nat := 0
  revision : Nat := 0
  referrers : Nat := 0
  members : List Member := []
  buckets : List Bucket := []
deriving DecidableEq, Repr

/-- The dependency index and its pool (R13, R14). -/
structure Dpx where
  lists : Table (List Nat) := []
  free : Nat := Config.poolSize
deriving DecidableEq, Repr

/-! ### Table writer and repair walker (chapter 7) -/

/-- The two claimants of the table writer (R145). -/
inductive Claimant where
  | walker
  | engine
deriving DecidableEq, Repr

/-- The table writer (R145, R146) and the depleted set it owns (R41). -/
structure Twr where
  performing : Option Claimant := none
  runCount : Nat := 0
  depleted : List Nat := []
deriving DecidableEq, Repr

/-- The walker's current work (R130). -/
inductive Work where
  | idle
  | job (uplink : Nat)
  | dependencyRebuild
  | rebuild
  | audit
deriving DecidableEq, Repr

/-- A job (R131). A cursor of `none` is before first. -/
structure Job where
  cursor : Option Nat := none
  inProgress : Bool := false
  restart : Bool := false
deriving DecidableEq, Repr

/-- The audit state (R130). -/
inductive AuditState where
  | off
  | waiting (expiry : Nat)
  | pass
deriving DecidableEq, Repr

/-- The repair walker (R130, R131). -/
structure Rwk where
  work : Work := .idle
  inFlight : Bool := false
  jobs : Table (Option Job) := []
  auditInterval : Option Nat := none
  audit : AuditState := .off
  auditCursor : Option Nat := none
deriving DecidableEq, Repr

/-! ### Uplink monitors and probe sessions (chapters 4 and 6) -/

/-- A reaction to evidence (R65). -/
inductive Reaction where
  | ignore
  | notify
  | suspect
  | down
deriving DecidableEq, Repr

/-- LOS latch mode (R65, R95). -/
inductive LatchMode where
  | follow
  | latch
deriving DecidableEq, Repr

/-- The staged fields of a monitor (R65, R86, R109). -/
structure Binding where
  los : Option Nat := none
  port : Option Nat := none
  session : Bool := false
  localDisc : Half := 0
  remoteDisc : Half := 0
  matchMask : Half := 0
deriving DecidableEq, Repr

/-- The configuration fields that are not staged (R65, R109, R112). -/
structure MonCfg where
  losReaction : Reaction := .down
  portReaction : Reaction := .down
  peerReaction : Reaction := .down
  latchMode : LatchMode := .follow
  echoLos : Bool := true
  echoPort : Bool := true
  drain : Bool := false
  signal : Bool := false
  priority : Nat := 3
  holdBase : Nat := 50
  flapWindow : Nat := 30
  qualifyTime : Nat := 100
  txInterval : Nat := 100
  minRx : Nat := 100
  qualifyCount : Nat := 3
  missWeight : Nat := 8
  errorWeight : Nat := 1
  recoveryStep : Nat := 2
  downAt : Nat := 24
  suspectAt : Nat := 16
  clearAt : Nat := 8
deriving DecidableEq, Repr

/-- The five monitor states (R67). -/
inductive MonState where
  | disabled
  | qualify
  | up
  | suspect
  | down
deriving DecidableEq, Repr

/-- The hold-down timer (R66, R79). -/
inductive HoldTimer where
  | stopped
  | running (expiry : Nat)
  | held
deriving DecidableEq, Repr

/-- Last-change reasons (R89). -/
inductive Reason where
  | none
  | enable
  | qualified
  | los
  | portDown
  | peerDown
  | confidence
  | host
  | cleared
  | holdExpired
  | disable
  | damaged
deriving DecidableEq, Repr

/-- The noted-evidence set (R66, R70). -/
structure Noted where
  los : Bool := false
  port : Bool := false
  peer : Bool := false
deriving DecidableEq, Repr

/-- Last peer state (R110). -/
inductive PeerState where
  | unknown
  | down
  | init
  | up
deriving DecidableEq, Repr

/-- A monitor: configuration (R65), running state (R66), latch (R95) and probe session (R110). -/
structure Monitor where
  active : Binding := {}
  pending : Option Binding := none
  cfg : MonCfg := {}
  state : MonState := .disabled
  losActive : Bool := false
  portActive : Bool := false
  peerHold : Bool := false
  hostActive : Bool := false
  noted : Noted := {}
  confidence : Nat := 0
  flap : Nat := 0
  lastService : Option Nat := none
  hold : HoldTimer := .stopped
  qualify : Option Nat := none
  downEntries : Nat := 0
  rollover : Bool := false
  reason : Reason := .none
  converged : Bool := true
  damaged : Bool := false
  latch : Bool := false
  learned : Half := 0
  peerState : PeerState := .unknown
  peerTx : Option Nat := none
  qualCount : Nat := 0
  arrival : Option Nat := none
  send : Option Nat := none
  decay : Option Nat := none
deriving DecidableEq, Repr

/-- The uplink monitor array (R65, R66) with its stray-arrival counter (R118). -/
structure Uma where
  monitors : Table Monitor := []
  strays : Nat := 0
deriving DecidableEq, Repr

/-! ### Evidence unit (chapter 5) -/

/-- The filter timer of a line (R92). -/
inductive FilterTimer where
  | stopped
  | towardAssert (expiry : Nat)
  | towardClear (expiry : Nat)
deriving DecidableEq, Repr

/-- A loss-of-light line's filter (R92). Times of the filters are in us and in ms. -/
structure Line where
  raw : Bool := false
  filtered : Bool := false
  timer : FilterTimer := .stopped
  assertFilter : Nat := 100
  clearFilter : Nat := 10
  shortPulses : Nat := 0
  assertions : Nat := 0
deriving DecidableEq, Repr

/-- An entry of the port state table (R98). -/
inductive PortEntry where
  | unknown
  | up
  | down
deriving DecidableEq, Repr

/-- Suppression state of a port with its guard timer (R102). -/
inductive Suppression where
  | clear
  | signalled
  | guard (expiry : Nat)
deriving DecidableEq, Repr

/-- A port of the evidence unit (R98 to R103). Its signal stands while `holders` is above 0 (R100). -/
structure Port where
  entry : PortEntry := .unknown
  holders : Nat := 0
  suppression : Suppression := .clear
  guardTime : Nat := 20
  errored : Nat := 0
  suppressed : Nat := 0
deriving DecidableEq, Repr

/-- The evidence unit (R92 to R108). -/
structure Evu where
  lines : Table Line := []
  ports : Table Port := []
  badNotices : Nat := 0
deriving DecidableEq, Repr

/-! ### Forwarding-side link and resolve unit (chapters 11 and 3) -/

/-- The link state (R180). -/
inductive LinkState where
  | down
  | training
  | active
deriving DecidableEq, Repr

/-- Own state in a probe (R114). -/
inductive OwnState where
  | down
  | init
  | up
deriving DecidableEq, Repr

/-- The fields of a PROBE_SEND (R114). -/
structure ProbeSend where
  monitor : Nat
  port : Nat
  mine : Half
  yours : Half
  own : OwnState
  txInterval : Nat
deriving DecidableEq, Repr

/-- A message of the transmit list (R185). -/
inductive TxMsg where
  | probeSend (p : ProbeSend)
  | faultSignal (port : Nat) (assert : Bool)
  | credit (count : Nat)
deriving DecidableEq, Repr

/-- The two sources of the transmitter (R185). -/
inductive TxSource where
  | answers
  | list
deriving DecidableEq, Repr

/-- The forwarding-side link interface (R180 to R185). -/
structure Fsl where
  link : LinkState := .down
  symbolLock : Bool := false
  sendingReady : Bool := false
  credits : Nat := 0
  consecutiveBad : Nat := 0
  discards : Nat := 0
  overruns : Nat := 0
  transmit : List TxMsg := []
  lastServed : TxSource := .answers
deriving DecidableEq, Repr

/-- Verdicts of an answer (R55). -/
inductive Verdict where
  | forward
  | discard
  | punt
  | error
deriving DecidableEq, Repr

/-- Reasons of an answer (R55). -/
inductive AnsReason where
  | none
  | noPath
  | unknownGroup
  | range
  | damaged
deriving DecidableEq, Repr

/-- What a derivation decides (R55 without the tag). -/
structure Verdicted where
  group : Nat
  verdict : Verdict
  reason : AnsReason
  port : Nat
  rewrite : Nat
  substitute : Bool
  backup : Bool
  revision : Nat
deriving DecidableEq, Repr

/-- An answer of the answer queue (R48, R55). -/
structure Answer where
  tag : Byte
  content : Verdicted
deriving DecidableEq, Repr

/-- Four counters, one for each verdict (R60, R64). -/
structure VerdictCounts where
  forward : Nat := 0
  discard : Nat := 0
  punt : Nat := 0
  error : Nat := 0
deriving DecidableEq, Repr

/-- The resolve unit (R48, R60, R61, R64). -/
structure Rsu where
  answers : List Answer := []
  answerCounts : VerdictCounts := {}
  testCounts : VerdictCounts := {}
  substitutions : Table Nat := []
deriving DecidableEq, Repr

/-! ### Record check (chapter 8) -/

/-- The six kinds of record that record check protects (R149). -/
inductive RecKind where
  | adjacency
  | header
  | member
  | bucket
  | dependency
  | monitor
deriving DecidableEq, Repr

/-- The duplicated fields (R149). -/
inductive DupField where
  | adjStatus (a : Nat)
  | adjRefs (a : Nat)
  | groupStatus (g : Nat)
  | groupRevision (g : Nat)
  | groupReferrers (g : Nat)
  | groupBackup (g : Nat)
  | memberLink (g : Nat) (i : Nat)
deriving DecidableEq, Repr

/-- The coded units of storage (R149): content parts, and the two copies of each duplicated field. -/
inductive RecUnit where
  | adjContent (a : Nat)
  | headerContent (g : Nat)
  | memberContent (g : Nat) (i : Nat)
  | bucket (g : Nat) (b : Nat)
  | entry (u : Nat) (g : Nat)
  | monitor (n : Nat)
  | copy (f : DupField) (second : Bool)
deriving DecidableEq, Repr

/-- How a unit that is not clean reads (R149). -/
inductive Damage where
  | correctable
  | uncorrectable
deriving DecidableEq, Repr

/-- One counter for each kind of record (R160). -/
structure KindCounts where
  adjacency : Nat := 0
  header : Nat := 0
  member : Nat := 0
  bucket : Nat := 0
  dependency : Nat := 0
  monitor : Nat := 0
deriving DecidableEq, Repr

/-- Record check (R149 to R160). `damage` lists the units that do not read clean. -/
structure Rck where
  damage : List (RecUnit × Damage) := []
  lost : List DupField := []
  rebuildList : List Nat := []
  dependencyPending : Bool := false
  tableFault : Bool := false
  corrected : KindCounts := {}
  uncorrected : KindCounts := {}
  lostCount : Nat := 0
deriving DecidableEq, Repr

/-! ### Notification unit (chapter 10) -/

/-- An event source (R174). -/
structure Source where
  pending : Bool := false
  masked : Bool := true
  cls : Nat := 0
deriving DecidableEq, Repr

/-- A vector message (R176). -/
structure VectorMsg where
  cls : Nat
  lowest : Nat
deriving DecidableEq, Repr

/-- The notification unit (R174) and the vector messages the port has been given and not yet sent (R176). -/
structure Nfu where
  sources : Table Source := []
  vectors : List VectorMsg := []
deriving DecidableEq, Repr

/-! ### Command engine (chapter 9) -/

/-- Status codes (R188). -/
inductive Status where
  | ok
  | range
  | notValid
  | notInstalled
  | inUse
  | duplicateMember
  | duplicate
  | backupChain
  | poolFull
  | badState
  | damaged
  | unknownCommand
  | badLength
deriving DecidableEq, Repr

/-- A GROUP_READ of an INSTALLED group (R171): a bucket of `none` read uncorrectable. -/
structure GroupView where
  group : Group
  rebuildPending : Bool
  depleted : Bool
  buckets : List (Option Bucket)
deriving DecidableEq, Repr

/-- JOB_STATUS (R148): the walker, each uplink's level and converged flag, and the counts beside them. -/
structure JobView where
  walker : Rwk
  levels : List (Nat × Bool)
  rebuildCount : Nat
  rebuildLowest : Option Nat
  dependencyPending : Bool
  tableFault : Bool
  readAt : Nat
  runCount : Nat
deriving DecidableEq, Repr

/-- COUNTERS_READ (R173). -/
structure CountersView where
  answers : VerdictCounts
  tests : VerdictCounts
  substitutions : List Nat
  strays : Nat
  badNotices : Nat
  corrected : KindCounts
  uncorrected : KindCounts
  lost : Nat
  overflow : Nat
  discards : Nat
  overruns : Nat
  free : Nat
  tableFault : Bool
  dependencyPending : Bool
deriving DecidableEq, Repr

/-- The result fields of a response (R166, R188). -/
inductive Result where
  | empty
  | refused
  | identity (seconds : Nat)
  | adjacency (status : AdjStatus) (port : Nat) (rewrite : Nat) (uplink : Option Nat) (refs : Nat)
  | groupWritten (revision : Nat) (liveCount : Nat)
  | revision (revision : Nat)
  | group (view : GroupView)
  | damagedGroup (backup : Option Nat) (revision : Nat)
  | handles (handles : List Nat) (more : Bool)
  | resolved (content : Verdicted) (supplier : Option (Nat × Nat × Nat))
  | monitorState (state : MonState)
  | monitor (view : Monitor) (readAt : Nat)
  | latch (latch : Bool) (filtered : Bool)
  | lineSet (assertFilter : Nat) (clearFilter : Nat)
  | portSet (guardTime : Nat)
  | line (view : Line) (readAt : Nat) (monitors : List Nat)
  | port (view : Port) (readAt : Nat) (monitors : List Nat)
  | jobs (view : JobView)
  | audit (interval : Option Nat) (state : AuditState)
  | counters (view : CountersView)
  | eventConfig (flags : List Bool) (counts : List Nat)
  | ranks (ranks : List Nat)
deriving DecidableEq, Repr

/-- A response record (R166). -/
structure Response where
  tag : Half
  code : Byte
  status : Status
  clamped : Bool
  stillAsserted : Bool
  result : Result
deriving DecidableEq, Repr

/-- The table command in execution (R162, R164). -/
structure Executing where
  tag : Half
  cmd : HostCmd
deriving DecidableEq, Repr

/-- The command engine (R162 to R168). A record of the queue is the bytes the write supplied. -/
structure Cme where
  queue : List (List Byte) := []
  responses : List Response := []
  executing : Option Executing := none
  discard : Bool := false
  overflow : Nat := 0
deriving DecidableEq, Repr

/-- What last left the part (the model's own, log entry 20): the data of the last response window read, the last
vector message, and the last link message sent, by its start marker and the bytes after it (R187; log entry 38). -/
structure Out where
  hostRead : List Byte := []
  vectorSent : Option VectorMsg := none
  linkSent : Option (Marker × List Byte) := none
deriving DecidableEq, Repr

/-- The state of the part and, in `pending`, the commands that wait for it, first in, first out. -/
structure State where
  pending : List Instr := []
  now : Nat := 0
  draws : Nat := 0
  fsl : Fsl := {}
  rsu : Rsu := {}
  groups : Table Group := []
  adjs : Table Adj := []
  dpx : Dpx := {}
  twr : Twr := {}
  rwk : Rwk := {}
  uma : Uma := {}
  evu : Evu := {}
  rck : Rck := {}
  cme : Cme := {}
  nfu : Nfu := {}
  out : Out := {}
deriving DecidableEq, Repr

/-- The spec lets no command stop the block: a command that fails a check answers with a status (R165), and damage
degrades records (R149 to R157). So no fault has a name. -/
inductive Fault where
deriving DecidableEq, Repr

/-- Why a command has no meaning in this model. -/
inductive Refusal where
  /-- Raised by `exec` alone, for a row of the table whose meaning has not been written. Safe: the run stops. -/
  | notModelled (mnemonic : String)
deriving DecidableEq, Repr

/-- The part right after device reset with nothing waiting and every loss-of-light line deasserted (R3, R9, R13, R14,
R41, R65, R66, R92, R98, R102, R129, R130, R154, R158, R160, R162, R174, R180; log entries 7, 8, 20, 21). -/
def State.reset : State := {}

end Sys2Proof.Machine
end

