-- ==== Sys2Proof/Machine/Ops.lean ====
section
/-!
DEFINITION. Named operations over the state: the tables in their canonical form, ordered sets of numbers, counters,
the one update of each block, and reading and writing one record.
-/

namespace Sys2Proof.Machine

open Sys2Proof

/-! ### Tables -/

/-- The record numbered `k`, or the reset record `d` where none is listed. -/
def tableGet {α : Type} (d : α) : Table α → Nat → α
  | [], _ => d
  | (k', v) :: t, k => if k' = k then v else tableGet d t k

/-- Drops the record numbered `k`. -/
def tableErase {α : Type} (k : Nat) : Table α → Table α
  | [] => []
  | (k', v) :: t => if k' = k then tableErase k t else (k', v) :: tableErase k t

/-- Lists the record numbered `k` at its place in rising order. -/
def tablePut {α : Type} (k : Nat) (v : α) : Table α → Table α
  | [] => [(k, v)]
  | (k', v') :: t =>
    if k < k' then (k, v) :: (k', v') :: t
    else if k = k' then (k, v) :: t
    else (k', v') :: tablePut k v t

/-- Writes the record numbered `k`, keeping the canonical form: a record equal to the reset record is not listed. -/
def tableSet {α : Type} [DecidableEq α] (d : α) (k : Nat) (v : α) (t : Table α) : Table α :=
  if v = d then tableErase k t else tablePut k v t

/-- The canonical form: numbers strictly rising, and no record equal to the reset record. -/
def tableWf {α : Type} [DecidableEq α] (d : α) : Table α → Bool
  | [] => true
  | (k, v) :: t => decide (v ≠ d) && t.all (fun e => decide (k < e.1)) && tableWf d t

/-! ### Ordered sets of numbers, without duplicates -/

/-- Puts `n` in its place. -/
def setInsert (n : Nat) : List Nat → List Nat
  | [] => [n]
  | m :: l => if n < m then n :: m :: l else if n = m then m :: l else m :: setInsert n l

/-- Takes `n` out. -/
def setErase (n : Nat) (l : List Nat) : List Nat := l.filter (fun m => decide (m ≠ n))

/-- Strictly rising. -/
def rising : List Nat → Bool
  | [] => true
  | [_] => true
  | a :: b :: l => decide (a < b) && rising (b :: l)

/-! ### Counters (Numbers and time, 00 scope) -/

/-- A 32-bit saturating count after `n`. -/
def sat32 (n : Nat) : Nat := min n 4294967295

/-- A 16-bit saturating count after `n`. -/
def sat16 (n : Nat) : Nat := min n 65535

/-- A 16-bit wrapping count. -/
def wrap16 (n : Nat) : Nat := n % 65536

/-! ### One update for each block -/

def modFsl (f : Fsl → Fsl) (s : State) : State := { s with fsl := f s.fsl }
def modRsu (f : Rsu → Rsu) (s : State) : State := { s with rsu := f s.rsu }
def modGroups (f : Table Group → Table Group) (s : State) : State := { s with groups := f s.groups }
def modAdjs (f : Table Adj → Table Adj) (s : State) : State := { s with adjs := f s.adjs }
def modDpx (f : Dpx → Dpx) (s : State) : State := { s with dpx := f s.dpx }
def modTwr (f : Twr → Twr) (s : State) : State := { s with twr := f s.twr }
def modRwk (f : Rwk → Rwk) (s : State) : State := { s with rwk := f s.rwk }
def modUma (f : Uma → Uma) (s : State) : State := { s with uma := f s.uma }
def modEvu (f : Evu → Evu) (s : State) : State := { s with evu := f s.evu }
def modRck (f : Rck → Rck) (s : State) : State := { s with rck := f s.rck }
def modCme (f : Cme → Cme) (s : State) : State := { s with cme := f s.cme }
def modNfu (f : Nfu → Nfu) (s : State) : State := { s with nfu := f s.nfu }
def modOut (f : Out → Out) (s : State) : State := { s with out := f s.out }
/-- Moves the time base. -/
def setNow (t : Nat) (s : State) : State := { s with now := t }
/-- Draws the next free value. -/
def draw (s : State) : State := { s with draws := s.draws + 1 }

/-! ### Reading and writing one record -/

/-- Group `g`'s record. -/
def State.group (s : State) (g : Nat) : Group := tableGet {} s.groups g
/-- Adjacency `a`'s record. -/
def State.adj (s : State) (a : Nat) : Adj := tableGet {} s.adjs a
/-- Uplink `u`'s dependency list (R13). -/
def State.depList (s : State) (u : Nat) : List Nat := tableGet [] s.dpx.lists u
/-- Uplink `u`'s job, if it has one (R131). -/
def State.job (s : State) (u : Nat) : Option Job := tableGet none s.rwk.jobs u
/-- Monitor `n`. -/
def State.mon (s : State) (n : Nat) : Monitor := tableGet {} s.uma.monitors n
/-- Line `l`. -/
def State.line (s : State) (l : Nat) : Line := tableGet {} s.evu.lines l
/-- Port `p`. -/
def State.port (s : State) (p : Nat) : Port := tableGet {} s.evu.ports p
/-- Event source of rank `r`. -/
def State.source (s : State) (r : Nat) : Source := tableGet {} s.nfu.sources r
/-- Uplink `u`'s substitution counter (R61). -/
def State.substitution (s : State) (u : Nat) : Nat := tableGet 0 s.rsu.substitutions u

def setGroup (g : Nat) (v : Group) : State → State := modGroups (tableSet {} g v)
def setAdj (a : Nat) (v : Adj) : State → State := modAdjs (tableSet {} a v)
def setDepList (u : Nat) (v : List Nat) : State → State :=
  modDpx (fun d => { d with lists := tableSet [] u v d.lists })
def setJob (u : Nat) (v : Option Job) : State → State :=
  modRwk (fun w => { w with jobs := tableSet none u v w.jobs })
def setMon (n : Nat) (v : Monitor) : State → State :=
  modUma (fun m => { m with monitors := tableSet {} n v m.monitors })
def setLine (l : Nat) (v : Line) : State → State :=
  modEvu (fun e => { e with lines := tableSet {} l v e.lines })
def setPort (p : Nat) (v : Port) : State → State :=
  modEvu (fun e => { e with ports := tableSet {} p v e.ports })
def setSource (r : Nat) (v : Source) : State → State :=
  modNfu (fun n => { n with sources := tableSet {} r v n.sources })
def setSubstitution (u : Nat) (v : Nat) : State → State :=
  modRsu (fun r => { r with substitutions := tableSet 0 u v r.substitutions })

/-- Changes monitor `n`'s record. -/
def modMon (n : Nat) (f : Monitor → Monitor) (s : State) : State := setMon n (f (s.mon n)) s
/-- Changes group `g`'s record. -/
def modGroup (g : Nat) (f : Group → Group) (s : State) : State := setGroup g (f (s.group g)) s
/-- Changes adjacency `a`'s record. -/
def modAdj (a : Nat) (f : Adj → Adj) (s : State) : State := setAdj a (f (s.adj a)) s
/-- Changes port `p`'s record. -/
def modPort (p : Nat) (f : Port → Port) (s : State) : State := setPort p (f (s.port p)) s

/-- The uplink and monitor numbers U0 to U31. -/
def allUplinks : List Nat := List.range Config.uplinks

/-- Does `f` for each number of a list in turn. -/
def forEach (l : List Nat) (f : Nat → State → State) (s : State) : State :=
  l.foldl (fun s n => f n s) s

/-! ### Event sources (R174, R175) -/

/-- Ranks of the sources (R174). -/
def rankIntegrity : Nat := 0
def rankLink : Nat := 1
def rankOverflow : Nat := 2
def rankMonitor (n : Nat) : Nat := 3 + n
def rankJobDone (u : Nat) : Nat := 35 + u
def rankDepleted : Nat := 67
def rankRestored : Nat := 68
def rankResponse : Nat := 69
def rankAuditPass : Nat := 70
/-- The number of sources. -/
def sourceCount : Nat := 71

/-- A block raises a source: its pending flag is set, masked or not (R175). -/
def raise (r : Nat) (s : State) : State := setSource r { s.source r with pending := true } s

end Sys2Proof.Machine
end

