-- ==== Sys2Proof/Machine/Dealing.lean ====
section
/-!
DEFINITION. Dealing: home counts from weights (R27, R28) and placement of buckets (R29 to R31).
-/

namespace Sys2Proof.Machine

open Sys2Proof

/-- The number of buckets a bucket count class names (R9). -/
def BucketCount.size : BucketCount → Nat
  | .b16 => 16
  | .b32 => 32
  | .b64 => 64

/-- Floors of the first stage (R27). -/
def floors (ws : List Nat) (B : Nat) : List Nat := ws.map (fun w => B * w / ws.sum)

/-- Remainders of the first stage (R27). -/
def remainders (ws : List Nat) (B : Nat) : List Nat := ws.map (fun w => B * w % ws.sum)

/-- How many members stand before member `i` in the ranking by remainder: a larger remainder, or an equal remainder
at a lower index (R27). -/
def rankOf (rs : List Nat) (i : Nat) : Nat :=
  ((List.range rs.length).filter (fun j =>
    decide (rs.getD i 0 < rs.getD j 0) || (decide (rs.getD j 0 = rs.getD i 0) && decide (j < i)))).length

/-- Counts after the first two stages (R27). -/
def sharedCounts (ws : List Nat) (B : Nat) : List Nat :=
  let fs := floors ws B
  let rs := remainders ws B
  let R := B - fs.sum
  (List.range ws.length).map (fun i => fs.getD i 0 + if rankOf rs i < R then 1 else 0)

/-- The donor: the largest count, equal counts in favour of the highest index (R28). -/
def donor : List Nat → Nat
  | [] => 0
  | c :: l => if l.all (fun d => decide (d < c)) then 0 else donor l + 1

/-- The visit of member `i` in the third stage (R28). -/
def giveOne (cs : List Nat) (i : Nat) : List Nat :=
  if cs.getD i 0 = 0 then
    let d := donor cs
    (cs.set d (cs.getD d 0 - 1)).set i 1
  else cs

/-- Home counts (R28). -/
def homeCounts (ws : List Nat) (B : Nat) : List Nat := (List.range ws.length).foldl giveOne (sharedCounts ws B)

/-- What one member takes in its turn of a pass: up to `turn` indices (R30, R31). -/
def passTakes (turn : Nat) : Nat → List Nat → List Nat
  | _, [] => []
  | i, c :: l => List.replicate (min turn c) i ++ passTakes turn (i + 1) l

/-- Passes over the members, each taking up to `turn` indices in its turn, until all are placed. -/
def passes (turn : Nat) : Nat → List Nat → List Nat
  | 0, _ => []
  | fuel + 1, cs => passTakes turn 0 cs ++ passes turn fuel (cs.map (fun c => c - turn))

/-- Home members of the buckets in index order (R29, R30, R31). -/
def placement (mode : Stripe) (cs : List Nat) : List Nat :=
  match mode with
  | .contiguous => passTakes cs.sum 0 cs
  | .round => passes 1 cs.sum cs
  | .pairs => passes 2 cs.sum cs

/-- Deals a group's bucket array afresh from its member records (R26). -/
def deal (g : Group) : Group :=
  let cs := homeCounts (g.members.map (·.weight)) g.bucketCount.size
  { g with
    members := g.members.zipWith (fun m c => { m with homeCount := c }) cs
    buckets := (placement g.stripe cs).map (fun h => { home := h, current := h }) }

end Sys2Proof.Machine
end

