-- ==== Sys2Proof/Machine/Flags.lean ====
section
/-!
DEFINITION. The conditions the part computes from its state: liveness of uplinks and members (R33 to R36), counted
sources and vector messages (R174 to R176), and the status word (R162, R188).
-/

namespace Sys2Proof.Machine

open Sys2Proof

/-! ### Liveness -/

/-- Liveness of an uplink as its monitor's state and drain-on-suspect decide it (R33, R67). -/
def monLive (m : Monitor) : Bool :=
  match m.state with
  | .disabled => false
  | .qualify => false
  | .up => true
  | .suspect => !m.cfg.drain
  | .down => false

/-- Uplink `u` is live (R33). -/
def uplinkLive (s : State) (u : Nat) : Bool := monLive (s.mon u)

/-- An adjacency carries traffic: it is VALID and its uplink is none or live (R34, conditions 2 and 3). -/
def adjLive (s : State) (a : Adj) : Bool :=
  match a.status with
  | .valid =>
    match a.uplink with
    | none => true
    | some u => uplinkLive s u
  | .invalid => false
  | .damaged => false

/-- A member is live (R34). -/
def memberLive (s : State) (m : Member) : Bool := m.enabled && adjLive s (s.adj m.adj)

/-- Which members of a list are live, in member order. -/
def liveMarks (s : State) (ms : List Member) : List Bool := ms.map (memberLive s)

/-- The positions that hold `true`, rising, counted from `i`. -/
def trueIndices : Nat → List Bool → List Nat
  | _, [] => []
  | i, b :: l => if b then i :: trueIndices (i + 1) l else trueIndices (i + 1) l

/-- The live list L (R35). -/
def liveList (s : State) (ms : List Member) : List Nat := trueIndices 0 (liveMarks s ms)

/-- The substitute L[b mod n] (R36), defined while L is not empty. -/
def substitute (live : List Nat) (b : Nat) : Option Nat := live[b % live.length]?

/-! ### Counted sources and vector messages -/

/-- A source is counted in class `v` (R174). -/
def countedIn (v : Nat) (src : Source) : Bool := src.pending && !src.masked && decide (src.cls = v)

/-- The ranks counted in class `v`, rising. -/
def countedRanks (s : State) (v : Nat) : List Nat :=
  (s.nfu.sources.filter (fun e => countedIn v e.2)).map (·.1)

/-- The class count (R174). -/
def classCount (s : State) (v : Nat) : Nat := (countedRanks s v).length

/-- The four class counts. -/
def classCounts (s : State) : List Nat := [classCount s 0, classCount s 1, classCount s 2, classCount s 3]

/-- Gives the port one vector message for class `v` if its count has gone from 0 to at least 1 (R175, R176). -/
def vectorFor (before : List Nat) (v : Nat) (s : State) : State :=
  match countedRanks s v with
  | [] => s
  | r :: _ =>
    if before.getD v 0 = 0 then modNfu (fun n => { n with vectors := n.vectors ++ [{ cls := v, lowest := r }] }) s
    else s

/-- The vector messages that one event's changes of the class counts call for, in ascending class order (R175). -/
def flushVectors (before : List Nat) (s : State) : State := forEach [0, 1, 2, 3] (vectorFor before) s

/-! ### The status word -/

/-- The part's three link states as the status word codes them (R188). -/
def linkCode : LinkState → Nat
  | .down => 0
  | .training => 1
  | .active => 2

/-- Command queue free entries (R162). -/
def freeEntries (s : State) : Nat := Config.queueDepth - s.cme.queue.length

/-- The status word (R162) in the bit places of R188. A read of it changes nothing (R161). -/
def statusWord (s : State) : BitVec 32 :=
  BitVec.ofNat 32
    (freeEntries s % 32
      + 2 ^ 5 * (s.cme.responses.length % 32)
      + 2 ^ 10 * s.cme.executing.isSome.toNat
      + 2 ^ 11 * s.cme.discard.toNat
      + 2 ^ 12 * linkCode s.fsl.link
      + 2 ^ 14 * s.rck.tableFault.toNat
      + 2 ^ 15 * s.rck.dependencyPending.toNat)

end Sys2Proof.Machine
end

