-- ==== Sys2Proof/Machine/Walker.lean ====
section
/-!
DEFINITION. The repair walker's jobs and choice of work (R130 to R140), and the table writer's arbitration between
the walker and the command engine (R145, R146).
-/

namespace Sys2Proof.Machine

open Sys2Proof

/-! ### The table writer's claimants -/

/-- The engine's operation waits at the table writer (R145). -/
def engineWaits (s : State) : Bool :=
  s.cme.executing.isSome && decide (s.twr.performing ≠ some .engine)

/-- The walker's step waits at the table writer (R145). -/
def walkerWaits (s : State) : Bool := s.rwk.inFlight && decide (s.twr.performing ≠ some .walker)

/-- A walker operation is started; the run count rises while a command waits (R146). -/
def startWalker (s : State) : State :=
  modTwr (fun t => { t with
    performing := some .walker
    runCount := if engineWaits s then min (t.runCount + 1) Config.maxWalkerRun else t.runCount }) s

/-- A command engine operation is started; the run count returns to 0 (R146). -/
def startEngine (s : State) : State :=
  modTwr (fun t => { t with performing := some .engine, runCount := 0 }) s

/-- An operation has completed: the table writer starts the one that waits, by R146 when both do. -/
def startNext (s : State) : State :=
  let s := modTwr (fun t => { t with performing := none }) s
  if walkerWaits s then
    if engineWaits s && decide (Config.maxWalkerRun ≤ s.twr.runCount) then startEngine s else startWalker s
  else if engineWaits s then startEngine s
  else s

/-- The walker's step claims the table writer; a free table writer starts it at once (R145). -/
def claimWalker (s : State) : State := if s.twr.performing = none then startWalker s else s

/-- The engine's operation claims the table writer; a free table writer starts it at once (R145). -/
def claimEngine (s : State) : State := if s.twr.performing = none then startEngine s else s

/-! ### Choosing the next work -/

/-- Uplink `u`'s level, read at the instant of the boundary (R137, R138). -/
def level (s : State) (u : Nat) : Nat := (s.mon u).cfg.priority

/-- The uplinks whose job is IN_PROGRESS: at most one (R131). -/
def jobsInProgress (s : State) : List Nat :=
  (s.rwk.jobs.filter (fun e => match e.2 with | some j => j.inProgress | none => false)).map (·.1)

/-- The uplinks whose job is PENDING, rising. -/
def jobsPending (s : State) : List Nat :=
  (s.rwk.jobs.filter (fun e => match e.2 with | some j => !j.inProgress | none => false)).map (·.1)

/-- The uplink of the lowest level, the lowest number among equals (R137 case 2); `l` is rising. -/
def mostUrgent (s : State) : List Nat → Option Nat
  | [] => none
  | u :: l =>
    match mostUrgent s l with
    | none => some u
    | some v => if level s v < level s u then some v else some u

/-- A PENDING job has a level strictly lower than `u`'s (R137 case 1). -/
def preempted (s : State) (u : Nat) : Bool := (jobsPending s).any (fun v => decide (level s v < level s u))

/-- The work of the first case of R137 that applies; `none` is case 6. -/
def chooseWork (s : State) : Option Work :=
  let otherWork : Option Work :=
    if s.rck.dependencyPending && !s.rck.tableFault then some .dependencyRebuild
    else if s.rck.rebuildList ≠ [] then some .rebuild
    else if s.rwk.audit = .pass then some .audit
    else none
  match jobsInProgress s with
  | u :: _ =>
    if preempted s u then (mostUrgent s (jobsPending s)).map Work.job else some (.job u)
  | [] =>
    match mostUrgent s (jobsPending s) with
    | some u => some (.job u)
    | none => otherWork

/-- The taken job becomes IN_PROGRESS; any other IN_PROGRESS job becomes PENDING and keeps its cursor (R137). -/
def takeJob (u : Nat) (s : State) : State :=
  modRwk (fun w => { w with
    jobs := w.jobs.map (fun e => (e.1, e.2.map (fun j => { j with inProgress := decide (e.1 = u) }))) }) s

/-- Issues one step of `w`: it is in flight and claims the table writer (R136). -/
def issueWork (w : Work) (s : State) : State :=
  let s := match w with
    | .job u => takeJob u s
    | .idle => s
    | .dependencyRebuild => s
    | .rebuild => s
    | .audit => s
  claimWalker (modRwk (fun r => { r with work := w, inFlight := true }) s)

/-- A step boundary: the walker chooses and issues its next work or becomes IDLE (R136, R137). -/
def stepBoundary (s : State) : State :=
  match chooseWork s with
  | some w => issueWork w s
  | none => modRwk (fun r => { r with work := .idle, inFlight := false }) s

/-- Work that becomes available to an IDLE walker makes a step boundary (R136). -/
def wakeWalker (s : State) : State :=
  if s.rwk.work = .idle ∧ s.rwk.inFlight = false then stepBoundary s else s

/-- A walker step completes: boundary, then the table writer's next start (R136, R145, R146). -/
def completeStep (s : State) : State :=
  startNext (stepBoundary (modRwk (fun r => { r with inFlight := false }) s))

/-! ### Job requests -/

/-- A job request for uplink `u` (R132). -/
def requestJob (u : Nat) (s : State) : State :=
  match s.job u with
  | none => setJob u (some {}) s
  | some j =>
    if j.inProgress then setJob u (some { j with restart := true }) s
    else setJob u (some { j with cursor := none }) s

/-- The jobs when the dependency-rebuild-pending flag is set (R139). -/
def restartJobs (s : State) : State :=
  modRwk (fun w => { w with
    jobs := w.jobs.map (fun e => (e.1, e.2.map (fun j =>
      if j.inProgress then { j with restart := true } else { j with cursor := none }))) }) s

/-- Record check sets the dependency-rebuild-pending flag (R154, R139). -/
def setDependencyPending (s : State) : State :=
  if s.rck.dependencyPending then s
  else restartJobs (modRck (fun r => { r with dependencyPending := true }) s)

/-! ### One event -/

/-- The end of an event that took the part from `before` to `after`: a wake of the walker if the changes made work,
and the vector messages that its raises call for together (R136, R175; log entries 10, 11). -/
def endEvent (before after : State) : State := flushVectors (classCounts before) (wakeWalker after)

/-- One event of the part. -/
def event (f : State → State) (s : State) : State := endEvent s (f s)

end Sys2Proof.Machine
end

