-- ==== Sys2Proof/Machine/RecordCheck.lean ====
section
/-!
DEFINITION. Record check (chapter 8): reading a coded unit or a duplicated field, and what each finding does. A read
answers whether the unit or field can be used, with the state its finding leaves.
-/

namespace Sys2Proof.Machine

open Sys2Proof

/-- The kind of record a duplicated field stands in (R149). -/
def DupField.kind : DupField → RecKind
  | .adjStatus _ => .adjacency
  | .adjRefs _ => .adjacency
  | .groupStatus _ => .header
  | .groupRevision _ => .header
  | .groupReferrers _ => .header
  | .groupBackup _ => .header
  | .memberLink _ _ => .member

/-- The kind of record a unit stands in (R149). -/
def RecUnit.kind : RecUnit → RecKind
  | .adjContent _ => .adjacency
  | .headerContent _ => .header
  | .memberContent _ _ => .member
  | .bucket _ _ => .bucket
  | .entry _ _ => .dependency
  | .monitor _ => .monitor
  | .copy f _ => f.kind

/-- One more of a kind, 32 bits saturating (R160). -/
def KindCounts.bump (k : RecKind) (c : KindCounts) : KindCounts :=
  match k with
  | .adjacency => { c with adjacency := sat32 (c.adjacency + 1) }
  | .header => { c with header := sat32 (c.header + 1) }
  | .member => { c with member := sat32 (c.member + 1) }
  | .bucket => { c with bucket := sat32 (c.bucket + 1) }
  | .dependency => { c with dependency := sat32 (c.dependency + 1) }
  | .monitor => { c with monitor := sat32 (c.monitor + 1) }

def countCorrected (k : RecKind) : State → State := modRck (fun r => { r with corrected := r.corrected.bump k })
def countUncorrected (k : RecKind) : State → State := modRck (fun r => { r with uncorrected := r.uncorrected.bump k })

/-- How a unit would read: `none` is clean. -/
def damageOf (u : RecUnit) : List (RecUnit × Damage) → Option Damage
  | [] => none
  | (v, d) :: l => if v = u then some d else damageOf u l

/-- A write codes the units that `p` picks afresh, so that they read clean (R149). -/
def writeUnits (p : RecUnit → Bool) : State → State :=
  modRck (fun r => { r with damage := r.damage.filter (fun e => !p e.1) })

/-- Both copies of a duplicated field. -/
def copiesOf (f : DupField) : RecUnit → Bool
  | .copy f' _ => decide (f' = f)
  | _ => false

/-! ### Reading a unit -/

/-- Reads one unit: a corrected unit is written back and counted (R150); an uncorrectable one answers `false`. -/
def readUnit (u : RecUnit) (s : State) : Bool × State :=
  match damageOf u s.rck.damage with
  | none => (true, s)
  | some .correctable => (true, countCorrected u.kind (writeUnits (fun v => decide (v = u)) s))
  | some .uncorrectable => (false, s)

/-! ### Findings -/

/-- Group `g` joins the rebuild list unless it stands there already (R158). -/
def joinRebuild (g : Nat) : State → State := modRck (fun r => { r with rebuildList := setInsert g r.rebuildList })

/-- Group `g` leaves the rebuild list (R158). -/
def leaveRebuild (g : Nat) : State → State := modRck (fun r => { r with rebuildList := setErase g r.rebuildList })

/-- The INSTALLED groups with a member naming adjacency `a`. -/
def installedNaming (s : State) (a : Nat) : List Nat :=
  (s.groups.filter (fun e =>
    decide (e.2.status = .installed) && e.2.members.any (fun m => decide (m.adj = a)))).map (·.1)

/-- Every INSTALLED group naming adjacency `a` joins the rebuild list (R158). Record check finds them as they stand
(log entry 14). -/
def joinNaming (a : Nat) (s : State) : State := forEach (installedNaming s a) joinRebuild s

/-- The group becomes DAMAGED: its status copies are written afresh (R152 step 1). -/
def markGroupDamaged (g : Nat) (s : State) : State :=
  writeUnits (copiesOf (.groupStatus g)) (modGroup g (fun r => { r with status := .damaged }) s)

/-- A group header or member content part read uncorrectable (R152). -/
def groupUncorrectable (k : RecKind) (g : Nat) (s : State) : State :=
  raise rankIntegrity (countUncorrected k (joinRebuild g (markGroupDamaged g s)))

/-- An adjacency becomes DAMAGED: its status copies are written afresh and its groups join the rebuild list (R153). -/
def markAdjDamaged (a : Nat) (s : State) : State :=
  joinNaming a (writeUnits (copiesOf (.adjStatus a)) (modAdj a (fun r => { r with status := .damaged }) s))

/-- An adjacency's content part read uncorrectable (R153). -/
def adjUncorrectable (a : Nat) (s : State) : State :=
  raise rankIntegrity (countUncorrected .adjacency (markAdjDamaged a s))

/-- A bucket read uncorrectable (R151). -/
def bucketUncorrectable (g : Nat) (s : State) : State := countUncorrected .bucket (joinRebuild g s)

/-- A dependency entry read uncorrectable (R154). -/
def entryUncorrectable (s : State) : State :=
  raise rankIntegrity (countUncorrected .dependency (setDependencyPending s))

/-- The object that holds a lost field is taken as DAMAGED (the table of R157; log entry 12). A lost field's own
copies stay as they are. The groups that name an adjacency join the rebuild list when it becomes DAMAGED (R158). -/
def degrade (f : DupField) (s : State) : State :=
  match f with
  | .groupStatus g => joinRebuild g (modGroup g (fun r => { r with status := .damaged }) s)
  | .groupReferrers g =>
    if (s.group g).status = .installed then joinRebuild g (markGroupDamaged g s) else markGroupDamaged g s
  | .memberLink g _ =>
    if (s.group g).status = .installed then joinRebuild g (markGroupDamaged g s) else markGroupDamaged g s
  | .groupRevision g => markGroupDamaged g s
  | .groupBackup g => markGroupDamaged g s
  | .adjStatus a =>
    if (s.adj a).status = .damaged then s else joinNaming a (modAdj a (fun r => { r with status := .damaged }) s)
  | .adjRefs a => if (s.adj a).status = .damaged then s else markAdjDamaged a s

/-- Both copies of `f` read uncorrectable: the field is lost (R157). -/
def fieldLost (f : DupField) (s : State) : State :=
  raise rankIntegrity (degrade f (modRck (fun r => { r with
    lost := f :: r.lost
    lostCount := sat32 (r.lostCount + 1)
    tableFault := true }) s))

/-! ### Reading a duplicated field -/

/-- A failing copy is rewritten from its good twin and counted (R150). -/
def repairCopy (f : DupField) (second : Bool) (s : State) : State :=
  countCorrected f.kind (writeUnits (fun v => decide (v = .copy f second)) s)

/-- Reads a duplicated field from its first copy that is clean or corrected (R149, R150); `false` when it is lost. -/
def readField (f : DupField) (s : State) : Bool × State :=
  if f ∈ s.rck.lost then (false, s)
  else
    match readUnit (.copy f false) s with
    | (true, s1) => (true, s1)
    | (false, s1) =>
      match readUnit (.copy f true) s1 with
      | (true, s2) => (true, repairCopy f false s2)
      | (false, s2) => (false, fieldLost f s2)

/-- Reads both copies of a duplicated field, as an audit step does (R159). -/
def readBothCopies (f : DupField) (s : State) : Bool × State :=
  if f ∈ s.rck.lost then (false, s)
  else
    match readUnit (.copy f false) s with
    | (true, s1) =>
      match readUnit (.copy f true) s1 with
      | (true, s2) => (true, s2)
      | (false, s2) => (true, repairCopy f true s2)
    | (false, s1) =>
      match readUnit (.copy f true) s1 with
      | (true, s2) => (true, repairCopy f false s2)
      | (false, s2) => (false, fieldLost f s2)

/-- Reads a duplicated field, both copies in an audit step (`audit`), else the first good one. -/
def readDup (audit : Bool) (f : DupField) (s : State) : Bool × State :=
  if audit then readBothCopies f s else readField f s

/-- Reads several duplicated fields in turn; `false` when any of them is lost. The reading ends at the first lost field
(R157), but in an audit step, which reads them all (R159). -/
def readFields (audit : Bool) : List DupField → State → Bool × State
  | [], s => (true, s)
  | f :: l, s =>
    match readDup audit f s with
    | (true, s1) => readFields audit l s1
    | (false, s1) => (false, if audit then (readFields audit l s1).2 else s1)

/-! ### Reading records -/

/-- Reads an adjacency's content part unless the adjacency is DAMAGED (R153). -/
def readAdjContent (a : Nat) (s : State) : State :=
  if (s.adj a).status = .damaged then s
  else
    match readUnit (.adjContent a) s with
    | (true, s1) => s1
    | (false, s1) => adjUncorrectable a s1

/-- Reads an adjacency record whole (R50, R149, R159): its status, its reference count, then its content part; `false`
when a field is lost. -/
def readAdjRecord (audit : Bool) (a : Nat) (s : State) : Bool × State :=
  match readFields audit [.adjStatus a, .adjRefs a] s with
  | (ok, s1) => (ok, readAdjContent a s1)

/-- Reads an adjacency record whole; a lost field leaves it DAMAGED. -/
def readAdj (audit : Bool) (a : Nat) (s : State) : State := (readAdjRecord audit a s).2

/-- Reads an adjacency record whole for ADJ_READ (R171): the status, the reference count also where the status is lost,
because it is returned in any case and no loss refuses the command (R153, R157), then the content part. -/
def readAdjReturned (a : Nat) (s : State) : State :=
  readAdjContent a (readField (.adjRefs a) (readField (.adjStatus a) s).2).2

/-- Reads what an adjacency's uplink is taken from (R6, R155): its status, then its content part; `false` when the
status is lost. -/
def readAdjUplink (a : Nat) (s : State) : Bool × State :=
  match readField (.adjStatus a) s with
  | (ok, s1) => (ok, readAdjContent a s1)

/-- Reads several adjacencies in turn, whole records or what their uplinks are taken from; ends at the first with a
lost field (R157). -/
def readAdjs (whole : Bool) : List Nat → State → Bool × State
  | [], s => (true, s)
  | a :: l, s =>
    match if whole then readAdjRecord false a s else readAdjUplink a s with
    | (true, s1) => readAdjs whole l s1
    | (false, s1) => (false, s1)

/-- The duplicated fields of a group's header (R149). -/
def headerFields (g : Nat) : List DupField := [.groupStatus g, .groupRevision g, .groupReferrers g, .groupBackup g]

/-- The duplicated fields of its header that a request reads of a group that serves it as a backup: all but its own
backup field, which is not read (R53). -/
def backupHeaderFields (b : Nat) : List DupField := [.groupStatus b, .groupRevision b, .groupReferrers b]

/-- Reads the duplicated fields `fs` of a group's header, then its content part while the group is INSTALLED (R152). -/
def readHeaderWith (audit : Bool) (fs : List DupField) (g : Nat) (s : State) : State :=
  let s := (readFields audit fs s).2
  if (s.group g).status = .installed then
    match readUnit (.headerContent g) s with
    | (true, s1) => s1
    | (false, s1) => groupUncorrectable .header g s1
  else s

/-- Reads a group's header whole: its four duplicated fields, then its content part (R149, R152). -/
def readHeader (audit : Bool) (g : Nat) (s : State) : State := readHeaderWith audit (headerFields g) g s

/-- Reads one member record of an INSTALLED group: its link field, then its content part (R152). -/
def readMember (audit : Bool) (g : Nat) (i : Nat) (s : State) : State :=
  if (s.group g).status = .installed then
    match readDup audit (.memberLink g i) s with
    | (false, s1) => s1
    | (true, s1) =>
      match readUnit (.memberContent g i) s1 with
      | (true, s2) => s2
      | (false, s2) => groupUncorrectable .member g s2
  else s

/-- Reads every member record of group `g`. -/
def readMembers (audit : Bool) (g : Nat) (s : State) : State :=
  forEach (List.range (s.group g).members.length) (readMember audit g) s

/-- The link fields of group `g`'s members. -/
def memberLinks (g : Nat) (s : State) : List DupField := (List.range (s.group g).members.length).map (DupField.memberLink g)

/-- Reads the adjacency of every member of group `g`. -/
def readMemberAdjs (audit : Bool) (g : Nat) (s : State) : State :=
  forEach ((s.group g).members.map (·.adj)) (readAdj audit) s

/-- Reads bucket `b` of group `g` (R151). -/
def readBucket (g b : Nat) (s : State) : Bool × State :=
  match readUnit (.bucket g b) s with
  | (true, s1) => (true, s1)
  | (false, s1) => (false, bucketUncorrectable g s1)

/-- Reads buckets in turn and answers which of them cannot be used. -/
def readBuckets (g : Nat) : List Nat → State → List Nat × State
  | [], s => ([], s)
  | b :: l, s =>
    match readBucket g b s with
    | (ok, s1) =>
      match readBuckets g l s1 with
      | (bad, s2) => (if ok then bad else b :: bad, s2)

/-- Reads the entries of some groups on uplink `u`'s list; stops at one that reads uncorrectable (R154). -/
def readEntries (u : Nat) : List Nat → State → Bool × State
  | [], s => (true, s)
  | g :: l, s =>
    match readUnit (.entry u g) s with
    | (true, s1) => readEntries u l s1
    | (false, s1) => (false, entryUncorrectable s1)

end Sys2Proof.Machine
end

