-- ==== Sys2Proof/Machine/Settle.lean ====
section
/-!
DEFINITION. Settle (R37 to R44), the depleted set (R40, R41) and publishing (R24, R25).
-/

namespace Sys2Proof.Machine

open Sys2Proof

/-! ### What a settle computes from liveness -/

/-- The current member a settle sets in bucket `b` (R39). -/
def settledCurrent (marks : List Bool) (b : Nat) (k : Bucket) : Nat :=
  if marks.getD k.home false then k.home
  else (substitute (trueIndices 0 marks) b).getD k.current

/-- The bucket records after a settle; those of `bad` are left as stored (R39, R44). -/
def settledBuckets (marks : List Bool) (bad : List Nat) (ks : List Bucket) : List Bucket :=
  ks.mapIdx (fun b k => if b ∈ bad then k else { k with current := settledCurrent marks b k })

/-- A group after a settle with the members' liveness `marks` (R38, R39). -/
def settledGroup (marks : List Bool) (bad : List Nat) (g : Group) : Group :=
  { g with
    members := g.members.zipWith (fun m live => { m with withdrawn := !live }) marks
    buckets := settledBuckets marks bad g.buckets
    liveCount := (trueIndices 0 marks).length }

/-- A settle changed a withdrawn mark or a current member (R42). -/
def settleChanged (before after : Group) : Bool :=
  decide (before.members.map (·.withdrawn) ≠ after.members.map (·.withdrawn))
    || decide (before.buckets.map (·.current) ≠ after.buckets.map (·.current))

/-- The depleted set and its events after a settle (R40). -/
def updateDepleted (g : Nat) (notify : Bool) (live : Nat) (s : State) : State :=
  if live = 0 then
    if g ∈ s.twr.depleted then s
    else
      let s := modTwr (fun t => { t with depleted := setInsert g t.depleted }) s
      if notify then raise rankDepleted s else s
  else
    if g ∈ s.twr.depleted then
      let s := modTwr (fun t => { t with depleted := setErase g t.depleted }) s
      if notify then raise rankRestored s else s
    else s

/-- A settle of group `g` once its header and members have been read: reads each member's adjacency and every bucket
through record check and makes all its changes (R37 to R40, R44). Answers whether it changed a mark or a current
member. -/
def settleRecord (audit : Bool) (g : Nat) (s : State) : Bool × State :=
  let s1 := readMemberAdjs audit g s
  match readBuckets g (List.range (s1.group g).buckets.length) s1 with
  | (bad, s2) =>
    let old := s2.group g
    let new := settledGroup (liveMarks s2 old.members) bad old
    (settleChanged old new, updateDepleted g new.notify new.liveCount (setGroup g new s2))

/-- A publish advances the revision (R24, R25), both copies coded afresh (R149). -/
def publish (g : Nat) (s : State) : State :=
  writeUnits (copiesOf (.groupRevision g)) (modGroup g (fun r => { r with revision := wrap16 (r.revision + 1) }) s)

/-- A settle by a job step or an audit step: of a group that is INSTALLED and whose header and members can be trusted,
published if it changed anything (R37, R42, R44). It reads the four duplicated header fields before it looks at the
status, so also those of a DAMAGED group, of which it reads nothing else (R152; log entry 14). Nor does an audit step
whose own finding has made the group DAMAGED read more of it, or its members' adjacency records (log entry 15). -/
def settleStep (audit : Bool) (g : Nat) (s : State) : State :=
  let s1 := readMembers audit g (readHeader audit g s)
  if (s1.group g).status = .installed then
    match settleRecord audit g s1 with
    | (changed, s2) => if changed then publish g s2 else s2
  else s1

end Sys2Proof.Machine
end

