-- ==== Sys2Proof/Machine/Resolve.lean ====
section
/-!
DEFINITION. The resolve service (chapter 3): deriving an answer, its counters and RESOLVE_TEST.
-/

namespace Sys2Proof.Machine

open Sys2Proof

/-- The bucket a flow hash selects in a group (R32). -/
def bucketOf (g : Group) (hash : Nat) : Nat := (hash + g.offset) % g.bucketCount.size

/-- What a request reads of a group it serves from: the bucket index, its current member (`none` when the bucket read
uncorrectable) and the live list of that instant (R50). -/
structure Served where
  bucket : Nat
  current : Option Nat
  live : List Nat
deriving DecidableEq, Repr

/-- The header fields a request reads of a group it serves from: a backup's own backup field is not read (R53). -/
def servedFields (asBackup : Bool) (x : Nat) : List DupField :=
  if asBackup then backupHeaderFields x else headerFields x

/-- The reads a request makes of a group it serves from, its own or a backup (R50, R53); `none` when they leave the
group DAMAGED. -/
def readServed (asBackup : Bool) (x hash : Nat) (s : State) : Option Served × State :=
  let s1 := readHeaderWith false (servedFields asBackup x) x s
  if (s1.group x).status = .installed then
    let b := bucketOf (s1.group x) hash
    match readBucket x b s1 with
    | (ok, s2) =>
      let s3 := readMembers false x s2
      if (s3.group x).status = .installed then
        let s4 := readMemberAdjs false x s3
        let r := s4.group x
        (some { bucket := b
                current := if ok then r.buckets[b]?.map (·.current) else none
                live := liveList s4 r.members }, s4)
      else (none, s3)
  else (none, s1)

/-- The bucket step (R52): the answering member and whether the substitute rule chose it; `none` when no member of the
group is live. -/
def bucketStep (v : Served) : Option (Nat × Bool) :=
  match v.current with
  | some c => if c ∈ v.live then some (c, false) else (substitute v.live v.bucket).map (fun i => (i, true))
  | none => (substitute v.live v.bucket).map (fun i => (i, true))

/-- The uplink whose substitution counter a bucket step of group `x` increments (R61): that of the VALID adjacency of a
cleanly read current member that is not live. -/
def passedOver (s : State) (x : Nat) (v : Served) : List Nat :=
  match v.current with
  | some c =>
    if c ∈ v.live then []
    else
      match (s.group x).members[c]? with
      | some m =>
        match (s.adj m.adj).status, (s.adj m.adj).uplink with
        | .valid, some u => [u]
        | _, _ => []
      | none => []
  | none => []

/-- A derived answer without its tag; for FORWARD the supplying group, member and adjacency (R63); and the uplinks
whose members were passed over (R61). -/
structure Derived where
  content : Verdicted
  supplier : Option (Nat × Nat × Nat)
  passed : List Nat
deriving DecidableEq, Repr

/-- A verdict that names no member (R55). -/
def noMember (group : Nat) (v : Verdict) (r : AnsReason) (revision : Nat) : Verdicted :=
  { group := group, verdict := v, reason := r, port := 0, rewrite := 0, substitute := false, backup := false,
    revision := revision }

/-- The FORWARD answer to a request for `group` from member `i` of group `x` (R55, R56, R57). -/
def forwardFrom (group x i : Nat) (sub bak : Bool) (passed : List Nat) (s : State) : Derived :=
  let r := s.group x
  let a := ((r.members[i]?).map (·.adj)).getD 0
  { content := { group := group, verdict := .forward, reason := .none, port := (s.adj a).port,
                 rewrite := (s.adj a).rewrite, substitute := sub, backup := bak, revision := r.revision }
    supplier := some (x, i, a)
    passed := passed }

/-- ERROR with reason DAMAGED for group `g`: its revision as last published, 0 when lost (R51, R57, R157). It reads the
revision that it carries (log entry 14). -/
def damagedAnswer (g : Nat) (passed : List Nat) (s : State) : Derived × State :=
  match readField (.groupRevision g) s with
  | (ok, s1) =>
    ({ content := noMember g .error .damaged (if ok then (s1.group g).revision else 0), supplier := none,
       passed := passed }, s1)

/-- A backup is INSTALLED, as a read of its status finds it (R51, R53). -/
def backupInstalled (b : Nat) (s : State) : Bool × State :=
  match readField (.groupStatus b) s with
  | (_, s1) => (decide ((s1.group b).status = .installed), s1)

/-- A request for a DAMAGED group (R51): it reads the backup link, and nothing else of the header unless it answers with
the group's revision (log entry 14). -/
def deriveDamaged (g hash : Nat) (s : State) : Derived × State :=
  match readField (.groupBackup g) s with
  | (false, s1) => damagedAnswer g [] s1
  | (true, s1) =>
    match (s1.group g).backup with
    | none => damagedAnswer g [] s1
    | some b =>
      match backupInstalled b s1 with
      | (false, s2) => damagedAnswer g [] s2
      | (true, s2) =>
        match readServed true b hash s2 with
        | (none, s3) => damagedAnswer g [] s3
        | (some v, s3) =>
          match bucketStep v with
          | some (i, sub) => (forwardFrom g b i sub true (passedOver s3 b v) s3, s3)
          | none => damagedAnswer g (passedOver s3 b v) s3

/-- The verdict of group `g`'s empty policy (R54). -/
def emptyVerdict (g : Nat) (passed : List Nat) (s : State) : Derived :=
  let r := s.group g
  { content := noMember g (match r.policy with | .discard => .discard | .punt => .punt) .noPath r.revision
    supplier := none
    passed := passed }

/-- A request whose group `g` has no live member turns to `g`'s backup (R53). -/
def deriveBackup (g hash : Nat) (passed : List Nat) (s : State) : Derived × State :=
  match (s.group g).backup with
  | none => (emptyVerdict g passed s, s)
  | some b =>
    match backupInstalled b s with
    | (false, s1) => (emptyVerdict g passed s1, s1)
    | (true, s1) =>
      match readServed true b hash s1 with
      | (none, s2) => (emptyVerdict g passed s2, s2)
      | (some v, s2) =>
        match bucketStep v with
        | some (i, sub) => (forwardFrom g b i sub true (passed ++ passedOver s2 b v) s2, s2)
        | none => (emptyVerdict g (passed ++ passedOver s2 b v) s2, s2)

/-- Derives the answer for group handle `g` and flow hash `hash` at this instant (R47, R49 to R57). A request for a
NOT_INSTALLED group reads its status and then its revision, and not its referrer count or its backup link (log entry
14). -/
def derive (g hash : Nat) (s : State) : Derived × State :=
  if Config.groupCapacity ≤ g then
    ({ content := noMember g .error .range 0, supplier := none, passed := [] }, s)
  else
    match readField (.groupStatus g) s with
    | (_, s1) =>
      match (s1.group g).status with
      | .notInstalled =>
        match readField (.groupRevision g) s1 with
        | (true, s2) =>
          ({ content := noMember g .error .unknownGroup (s2.group g).revision, supplier := none, passed := [] }, s2)
        | (false, s2) => deriveDamaged g hash s2
      | .damaged => deriveDamaged g hash s1
      | .installed =>
        match readServed false g hash s1 with
        | (none, s2) => deriveDamaged g hash s2
        | (some v, s2) =>
          match bucketStep v with
          | some (i, sub) => (forwardFrom g g i sub false (passedOver s2 g v) s2, s2)
          | none => deriveBackup g hash (passedOver s2 g v) s2

/-- One more answer of a verdict (R60). -/
def VerdictCounts.bump (v : Verdict) (c : VerdictCounts) : VerdictCounts :=
  match v with
  | .forward => { c with forward := sat32 (c.forward + 1) }
  | .discard => { c with discard := sat32 (c.discard + 1) }
  | .punt => { c with punt := sat32 (c.punt + 1) }
  | .error => { c with error := sat32 (c.error + 1) }

/-- Increments the substitution counters of the members passed over, each at most once (R61). -/
def countPassed (us : List Nat) (s : State) : State :=
  forEach us.dedup (fun u s => setSubstitution u (sat32 (s.substitution u + 1)) s) s

/-- The resolve unit takes a request: derives its answer, counts it and queues it (R46, R48, R60, R61). -/
def takeRequest (tag : Byte) (g hash : Nat) (s : State) : State :=
  match derive g hash s with
  | (d, s1) =>
    countPassed d.passed (modRsu (fun r => { r with
      answers := r.answers ++ [{ tag := tag, content := d.content }]
      answerCounts := r.answerCounts.bump d.content.verdict }) s1)

end Sys2Proof.Machine
end

