-- ==== Sys2Proof/Machine/Link.lean ====
section
/-!
DEFINITION. The forwarding-side link (chapter 11): giving messages, credits, and leaving ACTIVE; and the fault signals
and suppression states that follow from a port's holder count (R100 to R102).
-/

namespace Sys2Proof.Machine

open Sys2Proof

/-! ### The transmit list (R185) -/

/-- Two messages that the transmit list never holds side by side: the same kind for the same monitor or port. -/
def sameSlot : TxMsg → TxMsg → Bool
  | .probeSend p, .probeSend q => decide (p.monitor = q.monitor)
  | .faultSignal p _, .faultSignal q _ => decide (p = q)
  | .credit _, .credit _ => true
  | _, _ => false

/-- What becomes of a standing message when `m` is given in its slot: `none` when both are removed (R185). -/
def mergeMsg : TxMsg → TxMsg → Option TxMsg
  | .probeSend _, .probeSend q => some (.probeSend q)
  | .faultSignal p v, .faultSignal _ w => if v = w then some (.faultSignal p v) else none
  | .credit c, .credit d => some (.credit (c + d))
  | old, _ => some old

/-- Gives message `m` to the transmit list: it merges with the standing message of its slot, or joins the tail. -/
def giveTo (m : TxMsg) : List TxMsg → List TxMsg
  | [] => [m]
  | x :: l =>
    if sameSlot x m then
      match mergeMsg x m with
      | some y => y :: l
      | none => l
    else x :: giveTo m l

/-- A block gives the link interface a message: dropped while the link is not ACTIVE (R182, R185). -/
def giveMessage (m : TxMsg) (s : State) : State :=
  if s.fsl.link = .active then modFsl (fun f => { f with transmit := giveTo m f.transmit }) s else s

/-- Enters a link state other than ACTIVE, and raises LINK (R180). -/
def setLink (l : LinkState) (s : State) : State := raise rankLink (modFsl (fun f => { f with link := l }) s)

/-- The link goes to DOWN from TRAINING or ACTIVE. Leaving ACTIVE empties the answer queue and the transmit list and
takes the outstanding credits (R182). -/
def linkDown (s : State) : State :=
  let s :=
    if s.fsl.link = .active then
      modRsu (fun r => { r with answers := [] })
        (modFsl (fun f => { f with transmit := [], credits := 0 }) s)
    else s
  setLink .down (modFsl (fun f => { f with symbolLock := false, sendingReady := false }) s)

/-- A good message sets the consecutive-bad count to 0 (R183). -/
def goodMessage : State → State := modFsl (fun f => { f with consecutiveBad := 0 })

/-- A message under the request marker with no credit outstanding is discarded and counted (R184). -/
def requestOverrun : State → State := modFsl (fun f => { f with overruns := sat32 (f.overruns + 1) })

/-- A message under the request marker spends a credit (R184). -/
def spendCredit : State → State := modFsl (fun f => { f with credits := f.credits - 1 })

/-- Credits come back to the forwarding chip (R184). -/
def returnCredits (n : Nat) : State → State := modFsl (fun f => { f with credits := f.credits + n })

/-! ### Holders, fault signals and suppression (R100, R102) -/

/-- A port is suppressing (R102). -/
def isSuppressing : Suppression → Bool
  | .clear => false
  | .signalled => true
  | .guard _ => true

/-- A monitor's active bound port is suppressing (R103). -/
def boundSuppressing (s : State) (m : Monitor) : Bool :=
  match m.active.port with
  | none => false
  | some p => isSuppressing (s.port p).suppression

/-- A monitor takes a hold of port `p` (R100). -/
def holdPort (p : Nat) (s : State) : State :=
  let q := s.port p
  if q.holders = 0 then
    giveMessage (.faultSignal p true) (setPort p { q with holders := 1, suppression := .signalled } s)
  else setPort p { q with holders := q.holders + 1 } s

/-- What suppression becomes when the last holder releases the port (R102). -/
def afterLastRelease (now : Nat) (guardTime : Nat) : Suppression :=
  if guardTime = 0 then .clear else .guard (now + 1000 * guardTime)

/-- A monitor releases port `p` (R100). -/
def releasePort (p : Nat) (s : State) : State :=
  let q := s.port p
  if q.holders = 1 then
    giveMessage (.faultSignal p false)
      (setPort p { q with holders := 0, suppression := afterLastRelease s.now q.guardTime } s)
  else setPort p { q with holders := q.holders - 1 } s

/-- The port a monitor holds: its active bound port while it is in DOWN with signal-on-down yes (R100). -/
def heldPort (m : Monitor) : Option Nat :=
  if m.state = .down ∧ m.cfg.signal = true then m.active.port else none

/-- Holds the port a monitor is to hold, if it is to hold one. -/
def holdFor (m : Monitor) (s : State) : State :=
  match heldPort m with
  | none => s
  | some p => holdPort p s

/-- Releases the port a monitor holds, if it holds one. -/
def releaseFor (m : Monitor) (s : State) : State :=
  match heldPort m with
  | none => s
  | some p => releasePort p s

end Sys2Proof.Machine
end

