-- ==== Sys2Proof/Machine/Monitor.lean ====
section
/-!
DEFINITION. The uplink monitor's state machine (chapter 4) with the parts of the probe session that move with it
(chapter 6): evidence, the checks of R76 and R77, entry to QUALIFY, completion, entry to and exit from DOWN, DISABLE,
record damage.
-/

namespace Sys2Proof.Machine

open Sys2Proof

/-! ### Times -/

/-- The hold-down: base times 2 to the power f, in us (R78, R79). -/
def holdTime (m : Monitor) : Nat := 1000 * (m.cfg.holdBase * 2 ^ m.flap)

/-- The arrival period T in units of 100 us (R120). -/
def periodUnits (m : Monitor) : Nat :=
  match m.peerTx with
  | none => m.cfg.minRx
  | some p => max m.cfg.minRx p

/-- The arrival period T in us (R120). -/
def arrivalPeriod (m : Monitor) : Nat := 100 * periodUnits m

/-- The decay period (R126). -/
def decayPeriod : Nat := 100000

/-! ### Probe sends (R113, R114) -/

/-- Own state (R114). -/
def ownState (st : MonState) : OwnState :=
  match st with
  | .down => .down
  | .qualify => .init
  | .up => .up
  | .suspect => .up
  | .disabled => .down

/-- The monitor has an active session and a bound port, so that it sends probes (R113). -/
def sendsProbes (m : Monitor) : Bool := m.active.session && m.active.port.isSome

/-- The PROBE_SEND of this instant (R114). -/
def probeFields (n p : Nat) (m : Monitor) : ProbeSend :=
  { monitor := n, port := p, mine := m.active.localDisc, yours := m.learned, own := ownState m.state,
    txInterval := m.cfg.txInterval }

/-- The monitor gives a PROBE_SEND and its send timer starts or restarts (R113). -/
def sendProbe (n : Nat) (s : State) : State :=
  let m := s.mon n
  if m.active.session then
    match m.active.port with
    | none => s
    | some p =>
      giveMessage (.probeSend (probeFields n p m))
        (setMon n { m with send := some (s.now + 100 * m.cfg.txInterval) } s)
  else s

/-! ### Liveness changes (R83) -/

/-- The effects of a transition or write after which the uplink's liveness differs from `before` (R83). -/
def noteLiveness (n : Nat) (before : Bool) (s : State) : State :=
  if uplinkLive s n = before then s
  else raise (rankMonitor n) (requestJob n (modMon n (fun m => { m with converged := false }) s))

/-! ### Evidence -/

/-- The filtered state of a line, inactive where there is none. -/
def lineFiltered (s : State) (l : Option Nat) : Bool :=
  match l with
  | none => false
  | some l => (s.line l).filtered

/-- The LOS activity the evidence unit presents outside suppression (R95). -/
def presentedLos (s : State) (m : Monitor) : Bool :=
  match m.active.los with
  | none => false
  | some l =>
    match m.cfg.latchMode with
    | .follow => (s.line l).filtered
    | .latch => m.latch

/-- The PORT_DOWN activity the evidence unit presents outside suppression (R69, R98). -/
def presentedPort (s : State) (m : Monitor) : Bool :=
  match m.active.port with
  | none => false
  | some p => decide ((s.port p).entry = .down)

/-- The monitor is under suppression for LOS (R103). -/
def losSuppressed (s : State) (m : Monitor) : Bool := m.cfg.echoLos && boundSuppressing s m

/-- The monitor is under suppression for PORT_DOWN (R103). -/
def portSuppressed (s : State) (m : Monitor) : Bool := m.cfg.echoPort && boundSuppressing s m

/-- LOS evidence takes a value; an activation with reaction NOTIFY is noted (R70). -/
def setLos (n : Nat) (v : Bool) (s : State) : State :=
  let m := s.mon n
  if v = true ∧ m.losActive = false ∧ m.cfg.losReaction = .notify then
    raise (rankMonitor n) (setMon n { m with losActive := v, noted := { m.noted with los := true } } s)
  else setMon n { m with losActive := v } s

/-- PORT_DOWN evidence takes a value; an activation with reaction NOTIFY is noted (R70). -/
def setPortDown (n : Nat) (v : Bool) (s : State) : State :=
  let m := s.mon n
  if v = true ∧ m.portActive = false ∧ m.cfg.portReaction = .notify then
    raise (rankMonitor n) (setMon n { m with portActive := v, noted := { m.noted with port := true } } s)
  else setMon n { m with portActive := v } s

/-- What an evidence event does to the monitor's timers in each state (R71, R74, R79). -/
def evidenceTimers (now : Nat) (m : Monitor) : Monitor :=
  match m.state with
  | .qualify => if m.active.session then m else { m with qualify := some (now + 1000 * m.cfg.qualifyTime) }
  | .down => { m with hold := .running (now + holdTime m) }
  | .disabled => m
  | .up => m
  | .suspect => m

/-- The monitor takes an evidence event (R71). -/
def evidenceEvent (n : Nat) (s : State) : State := modMon n (evidenceTimers s.now) s

/-! ### Levels (R68) -/

/-- The monitor is in UP or SUSPECT, where CONFIDENCE and PEER_DOWN are evidence (R69). -/
def inService (st : MonState) : Bool :=
  match st with
  | .up => true
  | .suspect => true
  | .disabled => false
  | .qualify => false
  | .down => false

/-- The first source at DOWN level in the order of R77. `peer` says that PEER_DOWN occurs at this event with
reaction DOWN. -/
def downCause (peer : Bool) (m : Monitor) : Option Reason :=
  if m.hostActive then some .host
  else if m.losActive && decide (m.cfg.losReaction = .down) then some .los
  else if m.portActive && decide (m.cfg.portReaction = .down) then some .portDown
  else if peer then some .peerDown
  else if inService m.state && decide (m.cfg.downAt ≤ m.confidence) then some .confidence
  else none

/-- The first source at SUSPECT level in the order of R89. The PEER_DOWN hold is at SUSPECT level while the reaction is
SUSPECT (R68; log entry 26 for a reaction written to DOWN). -/
def suspectCause (m : Monitor) : Option Reason :=
  if m.losActive && decide (m.cfg.losReaction = .suspect) then some .los
  else if m.portActive && decide (m.cfg.portReaction = .suspect) then some .portDown
  else if m.peerHold && decide (m.cfg.peerReaction = .suspect) then some .peerDown
  else if inService m.state && decide (m.cfg.suspectAt ≤ m.confidence) && decide (m.confidence < m.cfg.downAt) then
    some .confidence
  else none

/-! ### Entry to and exit from DOWN (R78) -/

/-- The flap count at entry to DOWN (R78 step 1). -/
def flapAfter (now : Nat) (m : Monitor) : Nat :=
  if inService m.state then
    match m.lastService with
    | none => 0
    | some t => if now - t < 1000000 * m.cfg.flapWindow then min (m.flap + 1) 6 else 0
  else m.flap

/-- The monitor's record after entry to DOWN (R78 steps 1 to 5). -/
def downRecord (now : Nat) (why : Reason) (m : Monitor) : Monitor :=
  let f := flapAfter now m
  { m with
    flap := f
    hold := .running (now + 1000 * (m.cfg.holdBase * 2 ^ f))
    downEntries := wrap16 (m.downEntries + 1)
    rollover := m.rollover || decide (m.downEntries + 1 = 65536)
    reason := why
    peerHold := false
    arrival := none
    decay := none
    qualify := none
    state := .down }

/-- Entry to DOWN from QUALIFY, UP or SUSPECT (R78), with the fault signal before the probe (log entry 18). -/
def enterDown (n : Nat) (why : Reason) (s : State) : State :=
  let m := s.mon n
  let m' := downRecord s.now why m
  noteLiveness n (monLive m)
    (sendProbe n (raise (rankMonitor n) (holdFor m' (setMon n m' s))))

/-- Exit from DOWN: the held port is released, then the hold-down timer stops (R78). -/
def exitDown (n : Nat) (s : State) : State :=
  modMon n (fun m => { m with hold := .stopped }) (releaseFor (s.mon n) s)

/-! ### The checks of R77 and R76 -/

/-- The check of R77 in QUALIFY, UP and SUSPECT. -/
def checkDown (n : Nat) (peer : Bool) (s : State) : State :=
  let m := s.mon n
  match m.state with
  | .disabled => s
  | .down => s
  | _ =>
    match downCause peer m with
    | some why => enterDown n why s
    | none => s

/-- Entry to SUSPECT from UP (R76). -/
def enterSuspect (n : Nat) (why : Reason) (s : State) : State :=
  let m := s.mon n
  noteLiveness n (monLive m) (raise (rankMonitor n) (setMon n { m with state := .suspect, reason := why } s))

/-- Return from SUSPECT to UP (R76). -/
def clearSuspect (n : Nat) (s : State) : State :=
  let m := s.mon n
  noteLiveness n (monLive m)
    (raise (rankMonitor n) (setMon n { m with state := .up, reason := .cleared, lastService := some s.now } s))

/-- The evaluation of R76, in UP and SUSPECT. -/
def checkSuspect (n : Nat) (s : State) : State :=
  let m := s.mon n
  match m.state with
  | .up =>
    match suspectCause m with
    | some why => enterSuspect n why s
    | none => s
  | .suspect =>
    match suspectCause m with
    | some _ => s
    | none => if m.confidence ≤ m.cfg.clearAt then clearSuspect n s else s
  | .disabled => s
  | .qualify => s
  | .down => s

/-- The checks a monitor makes after every event it takes: R77, then R76. -/
def evaluate (n : Nat) (peer : Bool) (s : State) : State := checkSuspect n (checkDown n peer s)

/-! ### Binding (R86, R110) -/

/-- Two bindings differ in a staged session field (R110). -/
def sessionChanged (a b : Binding) : Bool :=
  decide (a.session ≠ b.session) || decide (a.localDisc ≠ b.localDisc)
    || decide (a.remoteDisc ≠ b.remoteDisc) || decide (a.matchMask ≠ b.matchMask)

/-- The session's running state returns to its initial values (R110). -/
def forgetPeer (m : Monitor) : Monitor := { m with learned := 0, peerState := .unknown, peerTx := none }

/-- The staged fields take new active values and nothing stays pending (R86): a changed session forgets its peer
(R110), a changed LOS line sets the latch (R97), and timers of a session that ceases stop (R113, R120). -/
def bindTo (s : State) (b : Binding) (m : Monitor) : Monitor :=
  let m1 := { m with active := b, pending := none }
  let m2 := if sessionChanged m.active b then forgetPeer m1 else m1
  let m3 :=
    if m.active.los ≠ b.los then
      { m2 with latch := decide (m.cfg.latchMode = .latch) && lineFiltered s b.los }
    else m2
  { m3 with
    send := if sendsProbes m3 then m3.send else none
    arrival := if b.session then m3.arrival else none }

/-! ### Qualification (R73, R75) -/

/-- Completion of qualification (R75, R126). -/
def completeQualify (n : Nat) (s : State) : State :=
  let m := s.mon n
  let m' := { m with
    state := if (suspectCause m).isSome then MonState.suspect else MonState.up
    lastService := some s.now
    reason := .qualified
    qualify := none
    decay := if m.active.session then none else some (s.now + decayPeriod) }
  noteLiveness n (monLive m) (sendProbe n (raise (rankMonitor n) (setMon n m' s)))

/-- Step 4 of R73: the qualify timer without a session, the count and the arrival timer with one. -/
def startQualify (now : Nat) (m : Monitor) : Monitor :=
  if m.active.session then
    { m with confidence := 0, qualCount := 0, arrival := some (now + 100 * m.cfg.minRx), qualify := none }
  else
    { m with confidence := 0, qualCount := 0, arrival := none, qualify := some (now + 1000 * m.cfg.qualifyTime) }

/-- Steps 2 to 6 of R73. `newLos` and `newPort` say that the binding of the source is new, so that suppression, if it
stands, begins from the underlying state of this instant (R103). -/
def beginQualify (n : Nat) (newLos newPort : Bool) (s : State) : State :=
  let m := s.mon n
  let s1 := if losSuppressed s m && !newLos then s else setLos n (presentedLos s m) s
  let s2 := if portSuppressed s m && !newPort then s1 else setPortDown n (presentedPort s m) s1
  let s3 := modMon n (fun m => startQualify s.now { m with peerHold := false }) s2
  match downCause false (s3.mon n) with
  | some why => enterDown n why s3
  | none =>
    if (s3.mon n).active.session = false ∧ (s3.mon n).cfg.qualifyTime = 0 then completeQualify n s3 else s3

/-- In LATCH mode the latch is set if the filtered state of the active line is asserted, and keeps its value otherwise:
at ENABLE (R95, R97) and at the end of suppression for LOS (R104). -/
def latchFromLine (s : State) (m : Monitor) : Bool :=
  m.latch || (decide (m.cfg.latchMode = .latch) && lineFiltered s m.active.los)

/-- Entry to QUALIFY (R73), from DISABLED or from DOWN, with the last-change reason `why`. -/
def enterQualify (n : Nat) (fromDisabled : Bool) (why : Reason) (s : State) : State :=
  let m := s.mon n
  let b := m.pending.getD m.active
  let m1 := bindTo s b { m with state := .qualify, reason := why, peerTx := none }
  let m2 := if fromDisabled then { m1 with latch := latchFromLine s m1 } else m1
  beginQualify n (fromDisabled || decide (m.active.los ≠ b.los) || decide (m.active.port ≠ b.port))
    (fromDisabled || decide (m.active.port ≠ b.port))
    (sendProbe n (raise (rankMonitor n) (setMon n m2 s)))

/-! ### DISABLE (R81) -/

/-- The monitor's record after DISABLE (R81 steps 2 to 6, R110, R126). -/
def disabledRecord (s : State) (m : Monitor) : Monitor :=
  let m1 := forgetPeer { m with
    qualify := none
    arrival := none
    send := none
    decay := none
    hold := .stopped
    losActive := false
    portActive := false
    peerHold := false
    hostActive := false
    flap := 0
    lastService := none
    state := .disabled
    reason := .disable }
  { bindTo s (m.pending.getD m.active) m1 with latch := false, send := none, arrival := none }

/-- The monitor stops (R81). -/
def disableMonitor (n : Nat) (s : State) : State :=
  let m := s.mon n
  let s1 := releaseFor m s
  noteLiveness n (monLive m) (raise (rankMonitor n) (setMon n (disabledRecord s1 (s1.mon n)) s1))

/-! ### Suppression ends (R104) -/

/-- At the end of suppression for LOS a latch in LATCH mode is set if its line's filtered state is asserted (R104). -/
def setLatchFromLine (n : Nat) (s : State) : State :=
  modMon n (fun m => { m with latch := latchFromLine s m }) s

/-- Suppression ends for a monitor's LOS source (`los`), its PORT_DOWN source (`port`) or both, as one evidence event:
the then-current state is presented, unless the source's reaction is IGNORE the event moves the timers, and the checks
follow (R104, R71). -/
def endSuppression (n : Nat) (los port : Bool) (s : State) : State :=
  let m := s.mon n
  if m.state = .disabled ∨ (los = false ∧ port = false) then s
  else
    let s1 := if port then setPortDown n (presentedPort s m) s else s
    let s2 :=
      if los then
        let s1 := setLatchFromLine n s1
        setLos n (presentedLos s1 (s1.mon n)) s1
      else s1
    let s3 :=
      if (los && decide (m.cfg.losReaction ≠ .ignore)) || (port && decide (m.cfg.portReaction ≠ .ignore)) then
        evidenceEvent n s2
      else s2
    evaluate n false s3

/-! ### Record damage (R82, R156) -/

/-- The monitor's record after damage, but for the state (R82 steps 1, 3 and 4, R129). -/
def damagedRecord (m : Monitor) : Monitor :=
  forgetPeer { m with
    damaged := true
    active := {}
    pending := none
    cfg := {}
    losActive := false
    portActive := false
    latch := false
    qualCount := 0
    arrival := none
    send := none
    decay := none
    hostActive := decide (m.state ≠ .disabled)
    reason := .damaged }

/-- The effects of R82 on a monitor whose record reads uncorrectable. -/
def damageMonitor (n : Nat) (s : State) : State :=
  let m := s.mon n
  let s1 := releaseFor m s
  let m' := damagedRecord m
  let s2 :=
    match m.state with
    | .disabled => setMon n m' s1
    | .down =>
      setMon n (if m.hostActive then m' else { m' with hold := .running (s.now + holdTime m') }) s1
    | _ => setMon n (downRecord s.now .damaged m') s1
  noteLiveness n (monLive m) (raise (rankMonitor n) s2)

/-- Reads a monitor's record: an uncorrectable one is written afresh with the reset configuration and the monitor is
damaged (R156). -/
def readMonitorRecord (n : Nat) (s : State) : State :=
  match readUnit (.monitor n) s with
  | (true, s1) => s1
  | (false, s1) =>
    damageMonitor n (raise rankIntegrity (countUncorrected .monitor
      (writeUnits (fun u => decide (u = .monitor n)) s1)))

/-! ### Several monitors at one instant -/

/-- Puts `n` into a list ordered by rank, equal ranks by lower number first. -/
def rankInsert (rank : Nat → Nat) (n : Nat) : List Nat → List Nat
  | [] => [n]
  | m :: l => if rank n < rank m ∨ (rank n = rank m ∧ n < m) then n :: m :: l else m :: rankInsert rank n l

/-- Orders monitors by rank. -/
def rankSort (rank : Nat → Nat) (l : List Nat) : List Nat := l.foldr (rankInsert rank) []

/-- The order in which several monitors take one event: free where there are several (log entry 8). -/
def takingOrder (s : State) (l : List Nat) : List Nat :=
  match l with
  | [] => []
  | [n] => [n]
  | _ => rankSort (Config.arrivalRank s.draws) l

/-- Each monitor of `l` takes one event in turn; work it gives the walker is seen at once (R136). -/
def eachMonitor (l : List Nat) (f : Nat → State → State) (s : State) : State :=
  forEach (takingOrder s l) (fun n s => wakeWalker (f n s)) (if l.length ≤ 1 then s else draw s)

/-- The monitors that are not DISABLED and whose active bound port is `p`. -/
def boundTo (s : State) (p : Nat) : List Nat :=
  allUplinks.filter (fun n => decide ((s.mon n).state ≠ .disabled) && decide ((s.mon n).active.port = some p))

/-- A monitor bound to `p` takes the end of `p`'s suppression for the sources its echo-suppress flags cover (R104). -/
def takePortCleared (p n : Nat) (s : State) : State :=
  let s := readMonitorRecord n s
  let m := s.mon n
  if m.active.port = some p then endSuppression n m.cfg.echoLos m.cfg.echoPort s else s

/-- Monitor `n` is under suppression for a source while its bound port suppresses (R103). -/
def echoProne (s : State) (n : Nat) : Bool := (s.mon n).cfg.echoLos || (s.mon n).cfg.echoPort

/-- Port `p` has gone to CLEAR: its suppression ends for every monitor bound to it but those of `skip` (R104). -/
def portCleared (p : Nat) (skip : List Nat) (s : State) : State :=
  eachMonitor ((boundTo s p).filter (fun n => echoProne s n && decide (n ∉ skip))) (takePortCleared p) s

/-- Port `p` stopped suppressing between two states. -/
def clearedBetween (before after : State) (p : Nat) : Bool :=
  isSuppressing (before.port p).suppression && !isSuppressing (after.port p).suppression

/-- If monitor `n`'s release of its bound port between two states took the port to CLEAR, the suppression of the other
monitors bound to it ends (R102, R104). -/
def notifyCleared (before : State) (n : Nat) (after : State) : State :=
  match (before.mon n).active.port with
  | none => after
  | some p => if clearedBetween before after p then portCleared p [n] after else after

/-- The monitor array reads monitor `n`'s record at an event or a command (R149, R156). -/
def readMonitor (n : Nat) (s : State) : State := notifyCleared s n (readMonitorRecord n s)

end Sys2Proof.Machine
end

