-- ==== Sys2Proof/Machine/Operands.lean ====
section
/-!
DEFINITION. Command records (R163, R188): the code and argument bytes of each command, and reading a record back into
the command it carries.
-/

namespace Sys2Proof

/-! ### Bytes (R186) -/

/-- A two-byte field as it is sent. -/
def halfBytes (h : Half) : List Byte := [h.extractLsb' 8 8, h.extractLsb' 0 8]

/-- A number as `n` bytes, most significant first. -/
def natBytes : Nat → Nat → List Byte
  | 0, _ => []
  | n + 1, v => BitVec.ofNat 8 (v / 256 ^ n) :: natBytes n v

/-- The byte at place `i` of a record; bytes the record does not supply are 0 (R163). -/
def byteAt (l : List Byte) (i : Nat) : Byte := l.getD i 0

/-- The two-byte field at place `i` of a record. -/
def halfAt (l : List Byte) (i : Nat) : Half := byteAt l i ++ byteAt l (i + 1)

/-! ### Codes and arguments (R188) -/

/-- The command's code. -/
def HostCmd.code : HostCmd → Byte
  | .identify => 0x01
  | .adjWrite _ _ _ _ => 0x10
  | .adjDelete _ => 0x11
  | .adjRead _ => 0x12
  | .groupWrite _ => 0x20
  | .groupDelete _ => 0x21
  | .groupRead _ => 0x22
  | .memberSet _ _ _ => 0x23
  | .depletedList _ => 0x24
  | .resolveTest _ _ => 0x25
  | .monitorWrite _ => 0x30
  | .monitorRead _ _ => 0x31
  | .enable _ => 0x32
  | .disable _ => 0x33
  | .forceDown _ => 0x34
  | .release _ => 0x35
  | .clearLatch _ => 0x36
  | .evidenceWrite _ _ _ _ _ => 0x38
  | .evidenceRead _ _ _ => 0x39
  | .jobStatus => 0x40
  | .auditSet _ => 0x41
  | .countersRead _ => 0x50
  | .eventConfig _ _ _ _ _ => 0x60
  | .eventFetch _ => 0x61

/-- One member entry of a GROUP_WRITE record. -/
def MemberArg.bytes (m : MemberArg) : List Byte := halfBytes m.adj ++ [m.weight, m.enabled]

/-- The arguments of GROUP_WRITE. -/
def GroupArgs.bytes (a : GroupArgs) : List Byte :=
  halfBytes a.group ++ [a.bucketClass, a.stripe] ++ halfBytes a.offset ++ halfBytes a.backup
    ++ [a.policy, a.notify, BitVec.ofNat 8 a.members.length] ++ a.members.flatMap MemberArg.bytes

/-- The arguments of MONITOR_WRITE. -/
def MonitorArgs.bytes (a : MonitorArgs) : List Byte :=
  [a.monitor, a.losLine, a.boundPort, a.session] ++ halfBytes a.localDisc ++ halfBytes a.remoteDisc
    ++ halfBytes a.matchMask
    ++ [a.losReaction, a.portReaction, a.peerReaction, a.latchMode, a.echoLos, a.echoPort, a.drain, a.signal, a.priority]
    ++ halfBytes a.holdBase ++ halfBytes a.flapWindow ++ halfBytes a.qualifyTime ++ halfBytes a.txInterval
    ++ halfBytes a.minRx
    ++ [a.qualifyCount, a.missWeight, a.errorWeight, a.recoveryStep, a.downAt, a.suspectAt, a.clearAt]

/-- The command's argument bytes in order. -/
def HostCmd.args : HostCmd → List Byte
  | .identify => []
  | .adjWrite a p r u => halfBytes a ++ [p] ++ halfBytes r ++ [u]
  | .adjDelete a => halfBytes a
  | .adjRead a => halfBytes a
  | .groupWrite g => g.bytes
  | .groupDelete g => halfBytes g
  | .groupRead g => halfBytes g
  | .memberSet g i e => halfBytes g ++ [i, e]
  | .depletedList g => halfBytes g
  | .resolveTest g h => halfBytes g ++ halfBytes h
  | .monitorWrite a => a.bytes
  | .monitorRead m c => [m, c]
  | .enable m => [m]
  | .disable m => [m]
  | .forceDown m => [m]
  | .release m => [m]
  | .clearLatch m => [m]
  | .evidenceWrite t i a c g => [t, i] ++ halfBytes a ++ halfBytes c ++ halfBytes g
  | .evidenceRead t i c => [t, i, c]
  | .jobStatus => []
  | .auditSet i => halfBytes i
  | .countersRead c => [c]
  | .eventConfig f l m c d => [f, l, m, c, d]
  | .eventFetch c => [c]

/-- The command record: code, pad, host tag, length, arguments. -/
def recordBytes (tag : Half) (cmd : HostCmd) : List Byte :=
  [cmd.code, 0] ++ halfBytes tag ++ halfBytes (BitVec.ofNat 16 cmd.args.length) ++ cmd.args

/-- The bytes of the header. -/
def headerLength : Nat := 6

/-- A command's record fits the largest record (R163). -/
def HostCmd.fits (cmd : HostCmd) : Bool := decide (headerLength + cmd.args.length ≤ Config.recordBytes)

/-! ### Reading a record -/

/-- The code names a command; the argument length R188 gives it, from the argument bytes. -/
def argLength (code : Nat) (a : List Byte) : Option Nat :=
  match code with
  | 0x01 => some 0
  | 0x10 => some 6
  | 0x11 => some 2
  | 0x12 => some 2
  | 0x20 => some (11 + 4 * (byteAt a 10).toNat)
  | 0x21 => some 2
  | 0x22 => some 2
  | 0x23 => some 4
  | 0x24 => some 2
  | 0x25 => some 4
  | 0x30 => some 36
  | 0x31 => some 2
  | 0x32 => some 1
  | 0x33 => some 1
  | 0x34 => some 1
  | 0x35 => some 1
  | 0x36 => some 1
  | 0x38 => some 8
  | 0x39 => some 3
  | 0x40 => some 0
  | 0x41 => some 2
  | 0x50 => some 1
  | 0x60 => some 5
  | 0x61 => some 1
  | _ => none

/-- The member entry at place `i` of a record. -/
def memberAt (a : List Byte) (i : Nat) : MemberArg :=
  { adj := halfAt a i, weight := byteAt a (i + 2), enabled := byteAt a (i + 3) }

/-- The arguments of GROUP_WRITE. -/
def groupArgsOf (a : List Byte) : GroupArgs :=
  { group := halfAt a 0, bucketClass := byteAt a 2, stripe := byteAt a 3, offset := halfAt a 4, backup := halfAt a 6,
    policy := byteAt a 8, notify := byteAt a 9,
    members := (List.range (byteAt a 10).toNat).map (fun i => memberAt a (11 + 4 * i)) }

/-- The arguments of MONITOR_WRITE. -/
def monitorArgsOf (a : List Byte) : MonitorArgs :=
  { monitor := byteAt a 0, losLine := byteAt a 1, boundPort := byteAt a 2, session := byteAt a 3
    localDisc := halfAt a 4, remoteDisc := halfAt a 6, matchMask := halfAt a 8
    losReaction := byteAt a 10, portReaction := byteAt a 11, peerReaction := byteAt a 12, latchMode := byteAt a 13
    echoLos := byteAt a 14, echoPort := byteAt a 15, drain := byteAt a 16, signal := byteAt a 17
    priority := byteAt a 18, holdBase := halfAt a 19, flapWindow := halfAt a 21, qualifyTime := halfAt a 23
    txInterval := halfAt a 25, minRx := halfAt a 27, qualifyCount := byteAt a 29, missWeight := byteAt a 30
    errorWeight := byteAt a 31, recoveryStep := byteAt a 32, downAt := byteAt a 33, suspectAt := byteAt a 34
    clearAt := byteAt a 35 }

/-- The command a code and its argument bytes give. -/
def commandOf (code : Nat) (a : List Byte) : Option HostCmd :=
  match code with
  | 0x01 => some .identify
  | 0x10 => some (.adjWrite (halfAt a 0) (byteAt a 2) (halfAt a 3) (byteAt a 5))
  | 0x11 => some (.adjDelete (halfAt a 0))
  | 0x12 => some (.adjRead (halfAt a 0))
  | 0x20 => some (.groupWrite (groupArgsOf a))
  | 0x21 => some (.groupDelete (halfAt a 0))
  | 0x22 => some (.groupRead (halfAt a 0))
  | 0x23 => some (.memberSet (halfAt a 0) (byteAt a 2) (byteAt a 3))
  | 0x24 => some (.depletedList (halfAt a 0))
  | 0x25 => some (.resolveTest (halfAt a 0) (halfAt a 2))
  | 0x30 => some (.monitorWrite (monitorArgsOf a))
  | 0x31 => some (.monitorRead (byteAt a 0) (byteAt a 1))
  | 0x32 => some (.enable (byteAt a 0))
  | 0x33 => some (.disable (byteAt a 0))
  | 0x34 => some (.forceDown (byteAt a 0))
  | 0x35 => some (.release (byteAt a 0))
  | 0x36 => some (.clearLatch (byteAt a 0))
  | 0x38 => some (.evidenceWrite (byteAt a 0) (byteAt a 1) (halfAt a 2) (halfAt a 4) (halfAt a 6))
  | 0x39 => some (.evidenceRead (byteAt a 0) (byteAt a 1) (byteAt a 2))
  | 0x40 => some .jobStatus
  | 0x41 => some (.auditSet (halfAt a 0))
  | 0x50 => some (.countersRead (byteAt a 0))
  | 0x60 => some (.eventConfig (byteAt a 0) (byteAt a 1) (byteAt a 2) (byteAt a 3) (byteAt a 4))
  | 0x61 => some (.eventFetch (byteAt a 0))
  | _ => none

/-- The code of a record. -/
def recordCode (r : List Byte) : Byte := byteAt r 0
/-- The host tag of a record. -/
def recordTag (r : List Byte) : Half := halfAt r 2
/-- The length field of a record. -/
def recordLength (r : List Byte) : Half := halfAt r 4
/-- The argument bytes the write supplied. -/
def recordArgs (r : List Byte) : List Byte := r.drop headerLength

/-- The header checks of R165 that the record alone decides: the command, or UNKNOWN_COMMAND or BAD_LENGTH. -/
def parseRecord (r : List Byte) : Except Machine.Status HostCmd :=
  let a := recordArgs r
  match argLength (recordCode r).toNat a, commandOf (recordCode r).toNat a with
  | some n, some cmd =>
    if (recordLength r).toNat = a.length ∧ a.length = n then .ok cmd else .error .badLength
  | _, _ => .error .unknownCommand

end Sys2Proof
end

