-- ==== Sys2Proof/Machine/Formats.lean ====
section
/-!
DEFINITION. Formats (R183, R186 to R188): link messages with their check sequence, response records, vector messages.
-/

namespace Sys2Proof.Machine

open Sys2Proof

/-! ### The check sequence (R186) -/

/-- One bit enters the register of the polynomial x^16 + x^12 + x^5 + 1. -/
def crcBit (crc : BitVec 16) (b : Bool) : BitVec 16 :=
  let shifted := crc <<< 1
  if (crc.getLsbD 15 ^^ b) then shifted ^^^ 0x1021#16 else shifted

/-- One byte enters the register, most significant bit first. -/
def crcByte (crc : BitVec 16) (x : Byte) : BitVec 16 :=
  [7, 6, 5, 4, 3, 2, 1, 0].foldl (fun c i => crcBit c (x.getLsbD i)) crc

/-- The check sequence of the kind, length and body bytes, the register preset to all ones. -/
def checkSequence (l : List Byte) : BitVec 16 := l.foldl crcByte 0xFFFF#16

/-! ### Link messages (R187) -/

/-- A message after its start marker: kind, length, body, check sequence. -/
def linkFrame (kind : Byte) (body : List Byte) : List Byte :=
  let head := [kind, BitVec.ofNat 8 body.length] ++ body
  head ++ halfBytes (checkSequence head)

def kindResolveReq : Byte := 0x01
def kindPortNotice : Byte := 0x02
def kindProbeArrival : Byte := 0x03
def kindResolveAns : Byte := 0x81
def kindProbeSend : Byte := 0x82
def kindFaultSignal : Byte := 0x83
def kindCredit : Byte := 0x84

/-- The start marker of a message of a kind: the request marker for RESOLVE_REQ and for nothing else (R183), and so the
general marker for the messages the part sends (log entry 38). -/
def markerOf (kind : Byte) : Marker := if kind = kindResolveReq then .request else .general

/-- A whole message (R187): its start marker, then its bytes. A marker is a line symbol (R183) and not a byte, so it
stands by its name (log entry 38). -/
def linkMessage (kind : Byte) (body : List Byte) : Marker × List Byte := (markerOf kind, linkFrame kind body)

/-- The body length of an inbound kind. -/
def inboundLength (kind : Byte) : Option Nat :=
  if kind = kindResolveReq then some 5
  else if kind = kindPortNotice then some 2
  else if kind = kindProbeArrival then some 8
  else none

/-- The kind may stand under the marker (R183). -/
def markerFits (m : Marker) (kind : Byte) : Bool := decide (m = markerOf kind)

/-- An inbound message is good: its check sequence matches, its kind is an inbound kind under its own marker, and its
length field is its kind's (R183). -/
def goodFrame (m : Marker) (frame : List Byte) : Bool :=
  match inboundLength (byteAt frame 0) with
  | none => false
  | some n =>
    markerFits m (byteAt frame 0) && decide ((byteAt frame 1).toNat = n) && decide (frame.length = n + 4)
      && decide (halfAt frame (n + 2) = checkSequence (frame.take (n + 2)))

/-- The marker and the bytes of an inbound message: the marker of its kind (R183) and its body's fields in the order of
R187. The commands that no inbound message carries have none. -/
def inboundFrame : Instr → Option (Marker × List Byte)
  | .resolveReq tag g h => some (linkMessage kindResolveReq ([tag] ++ halfBytes g ++ halfBytes h))
  | .portNotice p k => some (linkMessage kindPortNotice [p, k])
  | .probeArrival p st mine yours tx =>
    some (linkMessage kindProbeArrival
      ([p, st.setWidth 8] ++ halfBytes mine ++ halfBytes yours ++ halfBytes tx))
  | _ => none

/-- The command that a good inbound message carries, from the fields of its body (R187). The peer state is the low two
bits of its byte. -/
def inboundCommand (m : Marker) (frame : List Byte) : Option Instr :=
  if goodFrame m frame then
    let b := frame.drop 2
    if byteAt frame 0 = kindResolveReq then some (.resolveReq (byteAt b 0) (halfAt b 1) (halfAt b 3))
    else if byteAt frame 0 = kindPortNotice then some (.portNotice (byteAt b 0) (byteAt b 1))
    else
      some (.probeArrival (byteAt b 0) ((byteAt b 1).extractLsb' 0 2) (halfAt b 2) (halfAt b 4) (halfAt b 6))
  else none

def verdictCode : Verdict → Byte
  | .forward => 0
  | .discard => 1
  | .punt => 2
  | .error => 3

def reasonCode : AnsReason → Byte
  | .none => 0
  | .noPath => 1
  | .unknownGroup => 2
  | .range => 3
  | .damaged => 4

/-- The flags byte of an answer: bit 0 SUBSTITUTE, bit 1 BACKUP. -/
def flagsCode (v : Verdicted) : Byte := BitVec.ofNat 8 (v.substitute.toNat + 2 * v.backup.toNat)

/-- RESOLVE_ANS, its start marker first (R187; log entry 38). -/
def answerFrame (a : Answer) : Marker × List Byte :=
  linkMessage kindResolveAns
    ([a.tag] ++ natBytes 2 a.content.group ++ [verdictCode a.content.verdict, reasonCode a.content.reason,
      flagsCode a.content] ++ natBytes 1 a.content.port ++ natBytes 2 a.content.rewrite ++ natBytes 2 a.content.revision)

def ownCode : OwnState → Byte
  | .down => 0
  | .init => 1
  | .up => 2

/-- PROBE_SEND, FAULT_SIGNAL and CREDIT, their start marker first (R187; log entry 38). -/
def messageFrame : TxMsg → Marker × List Byte
  | .probeSend p =>
    linkMessage kindProbeSend
      (natBytes 1 p.monitor ++ natBytes 1 p.port ++ halfBytes p.mine ++ halfBytes p.yours ++ [ownCode p.own]
        ++ natBytes 2 p.txInterval)
  | .faultSignal p v => linkMessage kindFaultSignal (natBytes 1 p ++ natBytes 1 v.toNat)
  | .credit c => linkMessage kindCredit (natBytes 1 c)

/-! ### Response records (R188; log entries 22, 23) -/

def statusCode : Status → Byte
  | .ok => 0
  | .range => 1
  | .notValid => 2
  | .notInstalled => 3
  | .inUse => 4
  | .duplicateMember => 5
  | .duplicate => 6
  | .backupChain => 7
  | .poolFull => 8
  | .badState => 9
  | .damaged => 10
  | .unknownCommand => 11
  | .badLength => 12

def flagByte (b : Bool) : List Byte := natBytes 1 b.toNat

/-- A one-byte uplink, line or port field: 0xFF is none. -/
def optByte : Option Nat → List Byte
  | none => [0xFF]
  | some n => natBytes 1 n

/-- A two-byte handle field: 0xFFFF is absent. -/
def optHalf : Option Nat → List Byte
  | none => [0xFF, 0xFF]
  | some n => natBytes 2 n

def adjStatusCode : AdjStatus → Nat
  | .invalid => 0
  | .valid => 1
  | .damaged => 2

def groupStatusCode : GroupStatus → Nat
  | .notInstalled => 0
  | .installed => 1
  | .damaged => 2

def bucketClassCode : BucketCount → Nat
  | .b16 => 0
  | .b32 => 1
  | .b64 => 2

def stripeCode : Stripe → Nat
  | .contiguous => 0
  | .round => 1
  | .pairs => 2

def policyCode : Policy → Nat
  | .discard => 0
  | .punt => 1

def reactionCode : Reaction → Nat
  | .ignore => 0
  | .notify => 1
  | .suspect => 2
  | .down => 3

def latchModeCode : LatchMode → Nat
  | .follow => 0
  | .latch => 1

def monStateCode : MonState → Nat
  | .disabled => 0
  | .qualify => 1
  | .up => 2
  | .suspect => 3
  | .down => 4

def changeCode : Reason → Nat
  | .none => 0
  | .enable => 1
  | .qualified => 2
  | .los => 3
  | .portDown => 4
  | .peerDown => 5
  | .confidence => 6
  | .host => 7
  | .cleared => 8
  | .holdExpired => 9
  | .disable => 10
  | .damaged => 11

/-- A session's last peer state by its place in R110's list, UNKNOWN first, and not by the code of a PROBE_ARRIVAL's field
(log entry 22). -/
def peerCode : PeerState → Nat
  | .unknown => 0
  | .down => 1
  | .init => 2
  | .up => 3

def entryCode : PortEntry → Nat
  | .unknown => 0
  | .up => 1
  | .down => 2

def suppressionCode : Suppression → Nat
  | .clear => 0
  | .signalled => 1
  | .guard _ => 2

def auditCode : AuditState → Nat
  | .off => 0
  | .waiting _ => 1
  | .pass => 2

def filterCode : FilterTimer → Nat
  | .stopped => 0
  | .towardAssert _ => 1
  | .towardClear _ => 2

/-- The hold-down timer's condition by its place in R66's list: stopped, running, expired and held. R87 names the three in
another order (log entry 22). -/
def holdCode : HoldTimer → Nat
  | .stopped => 0
  | .running _ => 1
  | .held => 2

/-- The noted-evidence set: bit 0 LOS, bit 1 PORT_DOWN, bit 2 PEER_DOWN. -/
def notedCode (n : Noted) : Nat := n.los.toNat + 2 * n.port.toNat + 4 * n.peer.toNat

/-- A set of monitors: bit n for Un. -/
def setBytes (l : List Nat) : List Byte := natBytes 4 ((l.map (fun n => 2 ^ n)).sum)

/-- Time left until `e` in units of `unit` us, rounded up. -/
def timeLeft (now unit e : Nat) : Nat := (e - now + (unit - 1)) / unit

/-- A timer that is stopped or running: its condition, and the time left, 0 when stopped (log entry 22). -/
def timerBytes (now unit width : Nat) : Option Nat → List Byte
  | none => natBytes 1 0 ++ natBytes width 0
  | some e => natBytes 1 1 ++ natBytes width (timeLeft now unit e)

/-- One binding, active or pending (R188): LOS line, bound port and the session flag in 1 byte each, the two
discriminators and the match mask in 2 bytes each, in the order of MONITOR_WRITE (the mask and the order: log entry
22). -/
def bindingBytes (b : Binding) : List Byte :=
  optByte b.los ++ optByte b.port ++ flagByte b.session ++ halfBytes b.localDisc ++ halfBytes b.remoteDisc
    ++ halfBytes b.matchMask

/-- The configuration fields that are not staged, in the order of MONITOR_WRITE (R188). R188's table sorts no priority
level, qualify count, weight, recovery step or threshold: each takes 1 byte, as the command's own argument does (log
entry 22). -/
def configBytes (c : MonCfg) : List Byte :=
  natBytes 1 (reactionCode c.losReaction) ++ natBytes 1 (reactionCode c.portReaction)
    ++ natBytes 1 (reactionCode c.peerReaction) ++ natBytes 1 (latchModeCode c.latchMode) ++ flagByte c.echoLos
    ++ flagByte c.echoPort ++ flagByte c.drain ++ flagByte c.signal ++ natBytes 1 c.priority ++ natBytes 2 c.holdBase
    ++ natBytes 4 c.flapWindow ++ natBytes 2 c.qualifyTime ++ natBytes 2 c.txInterval ++ natBytes 2 c.minRx
    ++ natBytes 1 c.qualifyCount ++ natBytes 1 c.missWeight ++ natBytes 1 c.errorWeight ++ natBytes 1 c.recoveryStep
    ++ natBytes 1 c.downAt ++ natBytes 1 c.suspectAt ++ natBytes 1 c.clearAt

/-- The hold-down timer: its condition and the time left in ms, 0 when it does not run. -/
def holdBytes (now : Nat) : HoldTimer → List Byte
  | .running e => natBytes 1 (holdCode (.running e)) ++ natBytes 2 (timeLeft now 1000 e)
  | t => natBytes 1 (holdCode t) ++ natBytes 2 0

/-- The probe session's running state with the current period T (R129) in its units of R120; a monitor without a session
returns reset values (R110), and with them its stored qualification count and its local min-rx interval as T, which the
manual leaves open. The qualification count takes 1 byte (log entry 22, for all three). -/
def sessionBytes (now : Nat) (m : Monitor) : List Byte :=
  if m.active.session then
    halfBytes m.learned ++ natBytes 1 (peerCode m.peerState) ++ natBytes 2 (m.peerTx.getD 0) ++ natBytes 1 m.qualCount
      ++ timerBytes now 1 4 m.arrival ++ timerBytes now 1 4 m.send ++ natBytes 2 (periodUnits m)
  else
    halfBytes 0 ++ natBytes 1 0 ++ natBytes 2 0 ++ natBytes 1 m.qualCount ++ timerBytes now 1 4 none
      ++ timerBytes now 1 4 none ++ natBytes 2 (periodUnits { m with peerTx := none })

/-- MONITOR_READ (R86, R87), the latch last (R108). The active values of the six staged fields stand first, then one flag
for the six that says whether they have pending values, then the pending values, then the other fields. The
activity of evidence, the PEER_DOWN hold and the latch are flags, 1 for active or set, the flap count takes 1 byte, and
the qualify timer's time left is in ms, rounded up, in 2 bytes (log entry 22, for all of these). -/
def monitorBytes (m : Monitor) (now : Nat) : List Byte :=
  bindingBytes m.active ++ flagByte m.pending.isSome ++ bindingBytes (m.pending.getD {}) ++ configBytes m.cfg
    ++ flagByte m.damaged ++ natBytes 1 (monStateCode m.state) ++ natBytes 1 (changeCode m.reason) ++ flagByte m.losActive
    ++ flagByte m.portActive ++ flagByte m.hostActive ++ flagByte m.peerHold ++ natBytes 1 (notedCode m.noted)
    ++ natBytes 4 m.confidence ++ natBytes 1 m.flap ++ holdBytes now m.hold ++ timerBytes now 1000 2 m.qualify
    ++ natBytes 4 m.downEntries ++ flagByte m.rollover ++ flagByte m.converged ++ sessionBytes now m ++ flagByte m.latch

/-- GROUP_READ of an INSTALLED group (R171); the bucket count is sent as its class code, the hash offset in 2 bytes and a
member's weight in 1 (log entry 22). -/
def groupBytes (v : GroupView) : List Byte :=
  let g := v.group
  natBytes 1 (groupStatusCode g.status) ++ natBytes 1 (bucketClassCode g.bucketCount) ++ natBytes 1 (stripeCode g.stripe)
    ++ natBytes 2 g.offset ++ optHalf g.backup ++ natBytes 1 (policyCode g.policy) ++ flagByte g.notify
    ++ natBytes 1 g.liveCount ++ natBytes 2 g.revision ++ natBytes 2 g.referrers ++ flagByte v.rebuildPending
    ++ flagByte v.depleted
    ++ g.members.flatMap (fun m => natBytes 2 m.adj ++ natBytes 1 m.weight ++ flagByte m.enabled ++ flagByte m.withdrawn
        ++ natBytes 1 m.homeCount)
    ++ v.buckets.flatMap (fun b => optByte (b.map (·.home)) ++ optByte (b.map (·.current)))

/-- One uplink's entry of JOB_STATUS: job state, cursor, restart, level and converged flag (R188). The restart byte of an
uplink without a job is 0 (log entry 22). -/
def jobBytes (j : Option Job) (lv : Nat × Bool) : List Byte :=
  (match j with
    | none => natBytes 1 0 ++ optHalf none ++ natBytes 1 0
    | some j => natBytes 1 (if j.inProgress then 2 else 1) ++ optHalf j.cursor ++ flagByte j.restart)
    ++ natBytes 1 (lv.1 + 128 * lv.2.toNat)

/-- JOB_STATUS, 177 bytes (R188). -/
def jobStatusBytes (v : JobView) : List Byte :=
  (match v.walker.work with
    | .idle => natBytes 1 0 ++ [0xFF]
    | .job u => natBytes 1 1 ++ natBytes 1 u
    | .dependencyRebuild => natBytes 1 2 ++ [0xFF]
    | .rebuild => natBytes 1 3 ++ [0xFF]
    | .audit => natBytes 1 4 ++ [0xFF])
    ++ flagByte v.walker.inFlight
    ++ (List.range Config.uplinks).flatMap (fun u => jobBytes (tableGet none v.walker.jobs u) (v.levels.getD u (0, false)))
    ++ natBytes 2 v.rebuildCount ++ optHalf v.rebuildLowest ++ flagByte v.dependencyPending ++ flagByte v.tableFault
    ++ natBytes 2 (v.walker.auditInterval.getD 0) ++ natBytes 1 (auditCode v.walker.audit) ++ optHalf v.walker.auditCursor
    ++ natBytes 2 (match v.walker.audit with
        | .waiting e => timeLeft v.readAt 1000000 e
        | _ => 0)
    ++ natBytes 1 v.runCount

def kindCountBytes (k : KindCounts) : List Byte :=
  natBytes 4 k.adjacency ++ natBytes 4 k.header ++ natBytes 4 k.member ++ natBytes 4 k.bucket ++ natBytes 4 k.dependency
    ++ natBytes 4 k.monitor

def verdictCountBytes (v : VerdictCounts) : List Byte :=
  natBytes 4 v.forward ++ natBytes 4 v.discard ++ natBytes 4 v.punt ++ natBytes 4 v.error

/-- COUNTERS_READ (R173). -/
def countersBytes (v : CountersView) : List Byte :=
  verdictCountBytes v.answers ++ verdictCountBytes v.tests ++ v.substitutions.flatMap (natBytes 4) ++ natBytes 4 v.strays
    ++ natBytes 4 v.badNotices ++ kindCountBytes v.corrected ++ kindCountBytes v.uncorrected ++ natBytes 4 v.lost
    ++ natBytes 4 v.overflow ++ natBytes 4 v.discards ++ natBytes 4 v.overruns ++ natBytes 2 v.free
    ++ flagByte v.tableFault ++ flagByte v.dependencyPending

/-- RESOLVE_TEST (R63); the egress port is one byte (log entry 22). -/
def resolvedBytes (v : Verdicted) (sup : Option (Nat × Nat × Nat)) : List Byte :=
  [verdictCode v.verdict, reasonCode v.reason] ++ natBytes 1 v.port ++ natBytes 2 v.rewrite ++ [flagsCode v]
    ++ natBytes 2 v.revision ++ optHalf (sup.map (·.1)) ++ optByte (sup.map (·.2.1)) ++ optHalf (sup.map (·.2.2))

/-- A raw level or a filtered state by its place in its list of values (R92, R188): asserted 0, deasserted or clear 1. -/
def levelCode (asserted : Bool) : Nat := if asserted then 0 else 1

/-- EVIDENCE_READ of a line (R108). -/
def lineBytes (x : Line) (now : Nat) (ms : List Nat) : List Byte :=
  natBytes 1 (levelCode x.raw) ++ natBytes 1 (levelCode x.filtered) ++ natBytes 1 (filterCode x.timer)
    ++ natBytes 4 (match x.timer with
        | .stopped => 0
        | .towardAssert e => e - now
        | .towardClear e => e - now)
    ++ natBytes 4 x.assertFilter ++ natBytes 2 x.clearFilter ++ natBytes 2 x.shortPulses ++ natBytes 2 x.assertions
    ++ setBytes ms

/-- EVIDENCE_READ of a port (R108); the holder count takes 1 byte, and the signal state is a flag, 1 for asserted (R100;
log entry 22). -/
def portBytes (q : Port) (now : Nat) (ms : List Nat) : List Byte :=
  natBytes 1 (entryCode q.entry) ++ natBytes 1 q.holders ++ natBytes 1 (suppressionCode q.suppression)
    ++ natBytes 2 (match q.suppression with
        | .guard e => timeLeft now 1000 e
        | _ => 0)
    ++ flagByte (decide (0 < q.holders)) ++ natBytes 2 q.guardTime ++ natBytes 2 q.errored ++ natBytes 2 q.suppressed
    ++ setBytes ms

/-- IDENTIFY (R170); every number but the time is sent as a capacity, in 2 bytes (log entry 22). -/
def identityBytes (seconds : Nat) : List Byte :=
  [Config.partCode, Config.groupCapacity, Config.adjCapacity, Config.uplinks, Config.losLines, Config.ports,
    Config.poolSize, Config.queueDepth, Config.queueDepth, Config.answerDepth].flatMap (natBytes 2) ++ natBytes 4 seconds

/-- The result fields of an accepted command (R188), in the order in which the command's rule lists them. Each rank that
EVENT_FETCH returns (R177) and an adjacency's port and uplink take 1 byte, which R188's table of widths leaves open (log
entry 22). -/
def fieldBytes : Result → List Byte
  | .empty => []
  | .refused => []
  | .identity t => identityBytes t
  | .adjacency st p r u n =>
    natBytes 1 (adjStatusCode st) ++ natBytes 1 p ++ natBytes 2 r ++ optByte u ++ natBytes 2 n
  | .groupWritten rev live => natBytes 2 rev ++ natBytes 1 live
  | .revision rev => natBytes 2 rev
  | .group v => groupBytes v
  | .damagedGroup b rev => natBytes 1 2 ++ optHalf b ++ natBytes 2 rev
  | .handles l more => natBytes 1 l.length ++ l.flatMap (natBytes 2) ++ flagByte more
  | .resolved v sup => resolvedBytes v sup
  | .monitorState st => natBytes 1 (monStateCode st)
  | .monitor m t => monitorBytes m t
  | .latch l f => flagByte l ++ natBytes 1 (levelCode f)
  | .lineSet a c => natBytes 4 a ++ natBytes 2 c
  | .portSet g => natBytes 2 g
  | .line x t ms => lineBytes x t ms
  | .port q t ms => portBytes q t ms
  | .jobs v => jobStatusBytes v
  | .audit i st => natBytes 2 (i.getD 0) ++ natBytes 1 (auditCode st)
  | .counters v => countersBytes v
  | .eventConfig fs cs => fs.flatMap flagByte ++ cs.flatMap (natBytes 1)
  | .ranks rs => natBytes 1 rs.length ++ rs.flatMap (natBytes 1)

/-- The result of a command code whose fields a refusal sends as zeros: lists of varying length empty, the target LINE
(R165; log entry 23). A code that names no command has none. -/
def plainResult (code : Nat) : Result :=
  match code with
  | 0x01 => .identity 0
  | 0x12 => .adjacency .invalid 0 0 none 0
  | 0x20 => .groupWritten 0 0
  | 0x21 => .revision 0
  | 0x22 => .group { group := {}, rebuildPending := false, depleted := false, buckets := [] }
  | 0x23 => .revision 0
  | 0x24 => .handles [] false
  | 0x25 => .resolved { group := 0, verdict := .error, reason := .none, port := 0, rewrite := 0, substitute := false,
                        backup := false, revision := 0 } none
  | 0x30 => .monitorState .disabled
  | 0x31 => .monitor {} 0
  | 0x32 => .monitorState .disabled
  | 0x33 => .monitorState .disabled
  | 0x34 => .monitorState .disabled
  | 0x35 => .monitorState .disabled
  | 0x36 => .latch false false
  | 0x38 => .lineSet 0 0
  | 0x39 => .line {} 0 []
  | 0x40 => .jobs { walker := {}, levels := [], rebuildCount := 0, rebuildLowest := none, dependencyPending := false,
                    tableFault := false, readAt := 0, runCount := 0 }
  | 0x41 => .audit none .off
  | 0x50 => .counters { answers := {}, tests := {}, substitutions := List.replicate Config.uplinks 0, strays := 0,
                        badNotices := 0, corrected := {}, uncorrected := {}, lost := 0, overflow := 0, discards := 0,
                        overruns := 0, free := 0, tableFault := false, dependencyPending := false }
  | 0x60 => .eventConfig [] [0, 0, 0, 0]
  | 0x61 => .ranks []
  | _ => .empty

/-- The length of a refused command's result fields (R165; log entry 23). -/
def refusedLength (code : Nat) : Nat := (fieldBytes (plainResult code)).length

/-- The result fields of a response: all 0 for a refusal (R165). -/
def resultBytes (code : Nat) (r : Result) : List Byte :=
  if r = .refused then List.replicate (refusedLength code) 0 else fieldBytes r

/-- The response record: tag, code, status, warnings, pad, result length, result fields (R188). -/
def responseBytes (r : Response) : List Byte :=
  let res := resultBytes r.code.toNat r.result
  halfBytes r.tag ++ [r.code, statusCode r.status, BitVec.ofNat 8 (r.clamped.toNat + 2 * r.stillAsserted.toNat), 0]
    ++ natBytes 2 res.length ++ res

/-- A read of `n` bytes of a record: its leading bytes, then zeros (R167). -/
def readBytes (n : Nat) (l : List Byte) : List Byte := l.take n ++ List.replicate (n - l.length) 0

/-- The payload of a vector message (R188). -/
def vectorBytes (v : VectorMsg) : List Byte := [BitVec.ofNat 8 v.cls, BitVec.ofNat 8 v.lowest, 0, 0]

end Sys2Proof.Machine
end

