-- ==== Sys2Proof/Machine/Evidence.lean ====
section
/-!
DEFINITION. The evidence unit (chapter 5): line filters, delivery to monitors, the port state table, guard timers;
its commands CLEAR_LATCH, and EVIDENCE_WRITE and EVIDENCE_READ, stand in Machine/MonitorCommands.lean and
Machine/ReadCommands.lean.
-/

namespace Sys2Proof.Machine

open Sys2Proof

/-! ### Delivering a filtered change (R94, R95, R103) -/

/-- The monitors that receive a filtered change of line `l` (R94). -/
def boundToLine (s : State) (l : Nat) : List Nat :=
  allUplinks.filter (fun n => decide ((s.mon n).state ≠ .disabled) && decide ((s.mon n).active.los = some l))

/-- The monitors whose active LOS line is `l`, whatever their state (R108), as the bindings stand (log entry 14). -/
def activeOnLine (s : State) (l : Nat) : List Nat :=
  allUplinks.filter (fun n => decide ((s.mon n).active.los = some l))

/-- The monitors whose active bound port is `p`, whatever their state (R108), as the bindings stand (log entry 14). -/
def activeOnPort (s : State) (p : Nat) : List Nat :=
  allUplinks.filter (fun n => decide ((s.mon n).active.port = some p))

/-- One more suppressed notice or filtered change at port `p` (R103). -/
def countSuppressed (p : Nat) : State → State := modPort p (fun q => { q with suppressed := sat16 (q.suppressed + 1) })

/-- Monitor `n` takes a filtered assertion (`v`) or clearing of line `l` (R94, R95, R71). -/
def takeFiltered (l : Nat) (v : Bool) (n : Nat) (s : State) : State :=
  let s := readMonitor n s
  let m := s.mon n
  if m.state ≠ .disabled ∧ m.active.los = some l then
    let s1 :=
      match m.cfg.latchMode with
      | .follow => setLos n v s
      | .latch => setLos n (m.latch || v) (setMon n { m with latch := m.latch || v } s)
    evaluate n false (if m.cfg.losReaction = .ignore then s1 else evidenceEvent n s1)
  else s

/-- A filtered assertion or clearing of line `l` is delivered at its instant (R94): withheld from the monitors then
under suppression for LOS, counted once for each of their ports (R103; log entry 9), and taken by the others. -/
def deliverFiltered (l : Nat) (v : Bool) (s : State) : State :=
  let rs := boundToLine s l
  let held := rs.filter (fun n => losSuppressed s (s.mon n))
  let takers := rs.filter (fun n => !losSuppressed s (s.mon n))
  eachMonitor takers (takeFiltered l v)
    (forEach (held.filterMap (fun n => (s.mon n).active.port)).dedup countSuppressed s)

/-! ### The line filter (R93) -/

/-- The filtered state becomes asserted: a filtered assertion (R93). -/
def filterAssert (l : Nat) (s : State) : State :=
  let x := s.line l
  deliverFiltered l true
    (setLine l { x with filtered := true, timer := .stopped, assertions := sat16 (x.assertions + 1) } s)

/-- The filtered state becomes clear: a filtered clearing (R93). -/
def filterClear (l : Nat) (s : State) : State :=
  deliverFiltered l false (setLine l { s.line l with filtered := false, timer := .stopped } s)

/-- A raw assertion or deassertion (R93). A sample that shows no change is no event (R92). -/
def rawChange (l : Nat) (v : Bool) (s : State) : State :=
  let x := s.line l
  if x.raw = v then s
  else
    let y := { x with raw := v }
    match x.filtered, x.timer, v with
    | false, .stopped, true =>
      if x.assertFilter = 0 then filterAssert l (setLine l y s)
      else setLine l { y with timer := .towardAssert (s.now + x.assertFilter) } s
    | false, .towardAssert _, false =>
      setLine l { y with timer := .stopped, shortPulses := sat16 (x.shortPulses + 1) } s
    | true, .stopped, false => setLine l { y with timer := .towardClear (s.now + 1000 * x.clearFilter) } s
    | true, .towardClear _, true => setLine l { y with timer := .stopped } s
    | _, _, _ => setLine l y s

/-- The time base reaches instant `e`, unless it has passed it (log entry 3). -/
def reach (e : Nat) (s : State) : State := setNow (max s.now e) s

/-- A line's filter timer expires (R93). -/
def filterExpiry (l : Nat) (s : State) : State :=
  match (s.line l).timer with
  | .towardAssert e => filterAssert l (reach e s)
  | .towardClear e => filterClear l (reach e s)
  | .stopped => s

/-! ### Port notices (R98, R99) -/

/-- The kind of a PORT_NOTICE (R187). -/
inductive NoticeKind where
  | up
  | down
  | errored
deriving DecidableEq, Repr

/-- The kind a notice's code names (R187). -/
def noticeKind (k : Nat) : Option NoticeKind :=
  if k = 1 then some .up else if k = 2 then some .down else if k = 3 then some .errored else none

/-- Monitor `n` takes a change or repeat of its bound port's entry (R98, R71). -/
def takePortEntry (p n : Nat) (s : State) : State :=
  let s := readMonitor n s
  let m := s.mon n
  if m.state ≠ .disabled ∧ m.active.port = some p then
    let s1 := setPortDown n (presentedPort s m) s
    evaluate n false (if m.cfg.portReaction = .ignore then s1 else evidenceEvent n s1)
  else s

/-- The counter rises, to 255 at most (R124). -/
def raiseConfidence (weight : Nat) (m : Monitor) : Monitor := { m with confidence := min (m.confidence + weight) 255 }

/-- The counter falls, to 0 at least (R124). -/
def lowerConfidence (weight : Nat) (m : Monitor) : Monitor := { m with confidence := m.confidence - weight }

/-- Monitor `n` takes an ERRORED notice for its bound port (R99, R125). Its record is read at the notice also in QUALIFY
and DOWN, where the notice has no effect (R149; log entry 14). -/
def takeErrored (p n : Nat) (s : State) : State :=
  let s := readMonitor n s
  let m := s.mon n
  if inService m.state = true ∧ m.active.port = some p then
    evaluate n false (modMon n (raiseConfidence m.cfg.errorWeight) s)
  else s

/-- A notice for port `p` is presented to the bound monitors that are not under suppression for PORT_DOWN, and counted
once if it is withheld from any (R98, R99, R103; log entry 9). -/
def presentNotice (p : Nat) (take : Nat → State → State) (s : State) : State :=
  let rs := boundTo s p
  let held := rs.filter (fun n => portSuppressed s (s.mon n))
  let takers := rs.filter (fun n => !portSuppressed s (s.mon n))
  eachMonitor takers take (if held = [] then s else countSuppressed p s)

/-- The evidence unit takes a PORT_NOTICE (R98, R99). -/
def portNotice (p k : Nat) (s : State) : State :=
  if Config.ports ≤ p then modEvu (fun e => { e with badNotices := sat32 (e.badNotices + 1) }) s
  else
    match noticeKind k with
    | none => modEvu (fun e => { e with badNotices := sat32 (e.badNotices + 1) }) s
    | some .up => presentNotice p (takePortEntry p) (modPort p (fun q => { q with entry := .up }) s)
    | some .down => presentNotice p (takePortEntry p) (modPort p (fun q => { q with entry := .down }) s)
    | some .errored =>
      presentNotice p (takeErrored p) (modPort p (fun q => { q with errored := sat16 (q.errored + 1) }) s)

/-! ### Guard timers and activation -/

/-- Port `p`'s guard timer expires (R102, R104). -/
def guardExpiry (p : Nat) (s : State) : State :=
  match (s.port p).suppression with
  | .guard e => portCleared p [] (modPort p (fun q => { q with suppression := .clear }) (reach e s))
  | .clear => s
  | .signalled => s

/-- The monitors that are not DISABLED, bound to a port whose entry is DOWN, and not under suppression for PORT_DOWN:
those that see the change to UNKNOWN at activation (R106). -/
def seesUnknown (s : State) (n : Nat) : Bool :=
  let m := s.mon n
  decide (m.state ≠ .disabled) && presentedPort s m && !portSuppressed s m

/-- Monitor `n` takes the change of its bound port's entry to UNKNOWN (R106). -/
def takeUnknown (n : Nat) (s : State) : State :=
  match (s.mon n).active.port with
  | some p => takePortEntry p n s
  | none => s

/-- Step 1 of R106: every port entry becomes UNKNOWN, and each monitor that sees its own change takes it. -/
def activatePorts (s : State) : State :=
  let ms := allUplinks.filter (seesUnknown s)
  eachMonitor ms takeUnknown (modEvu (fun e => { e with ports :=
    (e.ports.map (fun x => (x.1, { x.2 with entry := PortEntry.unknown }))).filter (fun x => decide (x.2 ≠ {})) }) s)

/-- Step 2 of R106: FAULT_SIGNAL(assert) for each port whose holder count is above 0, in ascending order. -/
def activateSignals (s : State) : State :=
  forEach ((s.evu.ports.filter (fun x => decide (0 < x.2.holders))).map (·.1))
    (fun p => giveMessage (.faultSignal p true)) s

end Sys2Proof.Machine
end

