-- ==== Sys2Proof/Machine/Probe.lean ====
section
/-!
DEFINITION. Probe arrivals and the monitor timers' expiries (chapters 4 and 6).
-/

namespace Sys2Proof.Machine

open Sys2Proof

/-! ### Arrivals (R116 to R119) -/

/-- A PROBE_ARRIVAL's fields (R116). -/
structure Arrival where
  port : Nat
  peerState : Nat
  mine : Half
  yours : Half
  txInterval : Nat
deriving DecidableEq, Repr

/-- The peer state a code names; `none` for the code that names no state (R187). -/
def peerOf (c : Nat) : Option PeerState :=
  if c = 0 then some .down else if c = 1 then some .init else if c = 2 then some .up else none

/-- An arrival is malformed (R116). -/
def malformed (a : Arrival) : Bool :=
  decide (Config.ports ≤ a.port) || decide (a.mine = 0) || decide (peerOf a.peerState = none)

/-- A monitor's filter accepts a sender's discriminator (R118). -/
def filterAccepts (b : Binding) (sender : Half) : Bool := decide ((sender ^^^ b.remoteDisc) &&& b.matchMask = 0)

/-- Monitor `n` can be selected by an arrival (R117). -/
def selectable (s : State) (a : Arrival) (n : Nat) : Bool :=
  let b := (s.mon n).active
  if a.yours = 0 then b.session && decide (b.port = some a.port) && filterAccepts b a.mine
  else decide (b.localDisc = a.yours)

/-- The monitor an arrival selects, the lowest-numbered (R117). -/
def selectMonitor (s : State) (a : Arrival) : Option Nat := allUplinks.find? (selectable s a)

/-- A selected monitor accepts the arrival (R118). -/
def accepts (m : Monitor) (a : Arrival) : Bool :=
  decide (m.state ≠ .disabled) && m.active.session && filterAccepts m.active a.mine
    && decide (m.active.port = some a.port)

/-- A stray arrival (R118). -/
def strayArrival : State → State := modUma (fun m => { m with strays := sat32 (m.strays + 1) })

/-- An interval clamped to 10 to 10000 (R112, R119). -/
def clampInterval (n : Nat) : Nat := min (max n 10) 10000

/-- What every accepted arrival records (R119). -/
def recordArrival (a : Arrival) (m : Monitor) : Monitor :=
  { m with
    learned := a.mine
    peerState := (peerOf a.peerState).getD .unknown
    peerTx := some (clampInterval a.txInterval) }

/-- An accepted arrival in QUALIFY (R119, R122). -/
def arrivalInQualify (n : Nat) (a : Arrival) (s : State) : State :=
  let m := s.mon n
  let m := { m with arrival := some (s.now + arrivalPeriod m) }
  if peerOf a.peerState = some .down then setMon n { m with qualCount := 0 } s
  else
    let m := { m with qualCount := min (m.qualCount + 1) 15 }
    if m.cfg.qualifyCount ≤ m.qualCount then completeQualify n (setMon n m s) else setMon n m s

/-- PEER_DOWN occurs in UP or SUSPECT: noted or held by its reaction (R69, R70). -/
def peerDownOccurs (n : Nat) (s : State) : State :=
  let m := s.mon n
  match m.cfg.peerReaction with
  | .ignore => s
  | .notify => raise (rankMonitor n) (setMon n { m with noted := { m.noted with peer := true } } s)
  | .suspect => setMon n { m with peerHold := true } s
  | .down => s

/-- An accepted arrival in UP or SUSPECT (R119, R125). Answers whether PEER_DOWN occurred with reaction DOWN. -/
def arrivalInService (n : Nat) (a : Arrival) (s : State) : Bool × State :=
  let m := s.mon n
  let m := lowerConfidence m.cfg.recoveryStep { m with arrival := some (s.now + arrivalPeriod m) }
  if peerOf a.peerState = some .down then
    (decide (m.cfg.peerReaction = .down), peerDownOccurs n (setMon n m s))
  else (false, setMon n { m with peerHold := false } s)

/-- An accepted arrival (R119). -/
def acceptArrival (n : Nat) (a : Arrival) (s : State) : State :=
  let s := modMon n (recordArrival a) s
  match (s.mon n).state with
  | .qualify => evaluate n false (arrivalInQualify n a s)
  | .up =>
    match arrivalInService n a s with
    | (peer, s1) => evaluate n peer s1
  | .suspect =>
    match arrivalInService n a s with
    | (peer, s1) => evaluate n peer s1
  | .down => s
  | .disabled => s

/-- The monitor array takes an arrival (R116 to R119). The record of a selected monitor is read before its acceptance
test, that of a DISABLED one not (R149; log entry 14). -/
def probeArrival (a : Arrival) (s : State) : State :=
  if malformed a then strayArrival s
  else
    match selectMonitor s a with
    | none => strayArrival s
    | some n =>
      let s := if (s.mon n).state = .disabled then s else readMonitor n s
      if accepts (s.mon n) a then acceptArrival n a s else strayArrival s

/-! ### Timer expiries -/

/-- A monitor's qualify timer expires (R74, R75). -/
def qualifyExpiry (n : Nat) (s : State) : State :=
  match (s.mon n).qualify with
  | none => s
  | some e =>
    let s := readMonitor n (reach e s)
    if (s.mon n).state = .qualify ∧ (s.mon n).qualify.isSome then completeQualify n s else s

/-- A monitor whose exit from DOWN took its port to CLEAR takes the line's state into its latch (R97, R104). -/
def latchAtExit (n : Nat) (cleared : Bool) (s : State) : State :=
  if cleared && (s.mon n).cfg.echoLos then setLatchFromLine n s else s

/-- Exit from DOWN to QUALIFY at hold-down expiry, and the end of suppression for the others on a port it took to
CLEAR (R78, R79, R104). -/
def leaveDown (n : Nat) (s : State) : State :=
  let s1 := exitDown n s
  match (s.mon n).active.port with
  | none => enterQualify n false .holdExpired s1
  | some p =>
    let cleared := clearedBetween s s1 p
    let s2 := enterQualify n false .holdExpired (latchAtExit n cleared s1)
    if cleared then portCleared p [n] s2 else s2

/-- A monitor's hold-down expires (R79). -/
def holdExpiry (n : Nat) (s : State) : State :=
  match (s.mon n).hold with
  | .stopped => s
  | .held => s
  | .running e =>
    let s := readMonitor n (reach e s)
    let m := s.mon n
    if m.state = .down ∧ m.hold = .running e then
      match downCause false m with
      | some _ => setMon n { m with hold := .held } s
      | none => leaveDown n s
    else s

/-- A session's arrival timer expires: a miss (R121). -/
def arrivalExpiry (n : Nat) (s : State) : State :=
  match (s.mon n).arrival with
  | none => s
  | some e =>
    let s := readMonitor n (reach e s)
    let m := s.mon n
    if m.arrival.isSome then
      let m := { m with arrival := some (s.now + arrivalPeriod m) }
      match m.state with
      | .qualify => evaluate n false (setMon n { m with qualCount := 0 } s)
      | .up => evaluate n false (setMon n (raiseConfidence m.cfg.missWeight m) s)
      | .suspect => evaluate n false (setMon n (raiseConfidence m.cfg.missWeight m) s)
      | .down => setMon n m s
      | .disabled => setMon n m s
    else s

/-- A session's send timer expires (R113). -/
def sendExpiry (n : Nat) (s : State) : State :=
  match (s.mon n).send with
  | none => s
  | some e =>
    let s := readMonitor n (reach e s)
    if (s.mon n).send.isSome then sendProbe n s else s

/-- A sessionless monitor's decay timer expires (R126). -/
def decayExpiry (n : Nat) (s : State) : State :=
  match (s.mon n).decay with
  | none => s
  | some e =>
    let s := readMonitor n (reach e s)
    let m := s.mon n
    if m.decay.isSome then
      evaluate n false (setMon n { lowerConfidence m.cfg.recoveryStep m with decay := some (s.now + decayPeriod) } s)
    else s

/-- The monitors whose send timer runs. -/
def sendersOf (s : State) : List Nat := allUplinks.filter (fun n => (s.mon n).send.isSome)

/-- The reads of the monitors that are to give a PROBE_SEND at activation (R115, R149), made before any message of the
activation is given (log entry 35). -/
def activateReads (s : State) : State := forEach (sendersOf s) readMonitor s

/-- At activation each monitor whose send timer runs gives a PROBE_SEND, in ascending index (R115). -/
def activateProbes (s : State) : State := forEach (sendersOf s) sendProbe s

end Sys2Proof.Machine
end

