-- ==== Sys2Proof/Machine/TableCommands.lean ====
section
/-!
DEFINITION. The operations the table writer performs for the command engine (chapter 1): ADJ_WRITE, ADJ_DELETE,
GROUP_WRITE, GROUP_DELETE, MEMBER_SET. Each makes its checks and its effects at one instant (R1).
-/

namespace Sys2Proof.Machine

open Sys2Proof

/-- What a command answers (R166) and the state it leaves. -/
structure CmdOut where
  status : Status := .ok
  clamped : Bool := false
  stillAsserted : Bool := false
  result : Result := .empty
  state : State

/-- A command refused with a status (R165): no warning, result fields all 0. -/
def refuse (st : Status) (s : State) : CmdOut := { status := st, result := .refused, state := s }

/-! ### ADJ_WRITE (R4, R5, R6) -/

/-- An uplink field: 0xFF is none; `none` outside when it names no uplink (R186). -/
def uplinkField (b : Byte) : Option (Option Nat) :=
  if b.toNat = 255 then some none
  else if b.toNat < Config.uplinks then some (some b.toNat)
  else none

/-- The record an ADJ_WRITE gives, the reference count kept (R4). -/
def writtenAdj (port rewrite : Nat) (uplink : Option Nat) (a : Adj) : Adj :=
  { a with status := .valid, port := port, rewrite := rewrite, uplink := uplink }

/-- The units of adjacency `a`'s record. -/
def adjUnits (a : Nat) : RecUnit → Bool
  | .adjContent a' => decide (a' = a)
  | .copy f _ => decide (f = .adjStatus a) || decide (f = .adjRefs a)
  | _ => false

/-- Writes adjacency `a`'s record, its units coded afresh (R149). -/
def writeAdj (a : Nat) (v : Adj) (s : State) : State := writeUnits (adjUnits a) (setAdj a v s)

/-- A group is INSTALLED or DAMAGED, so that it holds references (R8). -/
def referencing (g : Group) : Bool := decide (g.status ≠ .notInstalled)

/-- What the search for the first referencing group comes to. -/
inductive Search where
  | found (g : Nat)
  | noGroup
  | lost
deriving DecidableEq, Repr

/-- The first referencing group of adjacency `a` among the handles `g`, `g + 1`, ..., `fuel` of them (R6): the status of
each group is read and, of an INSTALLED or DAMAGED one, every member's link field; the search ends at a lost field
(R157; log entry 14). -/
def firstReferencing (a : Nat) : Nat → Nat → State → Search × State
  | 0, _, s => (.noGroup, s)
  | fuel + 1, g, s =>
    match readField (.groupStatus g) s with
    | (false, s1) => (.lost, s1)
    | (true, s1) =>
      if referencing (s1.group g) then
        match readFields false (memberLinks g s1) s1 with
        | (false, s2) => (.lost, s2)
        | (true, s2) =>
          if (s2.group g).members.any (fun m => decide (m.adj = a)) then (.found g, s2)
          else firstReferencing a fuel (g + 1) s2
      else firstReferencing a fuel (g + 1) s1

/-- The uplinks on whose lists group `g` stands. -/
def standsOn (s : State) (g : Nat) : List Nat := allUplinks.filter (fun u => decide (g ∈ s.depList u))

/-- Reads group `g`'s own entry on each of some lists; stops at one that reads uncorrectable (R154; log entry 14). -/
def readEntriesOf (g : Nat) : List Nat → State → Bool × State
  | [], s => (true, s)
  | u :: l, s =>
    match readEntries u [g] s with
    | (true, s1) => readEntriesOf g l s1
    | (false, s1) => (false, s1)

/-- The uplinks of the VALID adjacencies among some member records. -/
def validUplinks (s : State) (ms : List Member) : List Nat :=
  ms.filterMap (fun m =>
    match (s.adj m.adj).status with
    | .valid => (s.adj m.adj).uplink
    | .invalid => none
    | .damaged => none)

/-- The given uplink agrees with the first referencing group's lists (R6): `S` the uplinks on whose lists it stands,
`T` those of its other members' VALID adjacencies. -/
def uplinkAgrees (S T : List Nat) (uplink : Option Nat) : Bool :=
  let unaccounted := S.filter (fun u => decide (u ∉ T))
  match uplink with
  | none => decide (unaccounted = [])
  | some u => decide (unaccounted = [u]) || (decide (unaccounted = []) && decide (u ∈ T))

/-- The repair of a referenced DAMAGED adjacency is accepted (R6, R153 last paragraph). -/
def repairAdj (a : Nat) (v : Adj) (s : State) : State :=
  raise rankIntegrity (setDependencyPending (joinNaming a (writeAdj a v s)))

/-- ADJ_WRITE of a DAMAGED adjacency with references (R6). A read that finds a field lost or an entry uncorrectable
refuses it there (R154, R157); log entry 14 names the units that the check reads. -/
def writeDamagedAdj (a : Nat) (v : Adj) (s : State) : CmdOut :=
  if s.rck.dependencyPending then refuse .damaged s
  else
    match firstReferencing a Config.groupCapacity 0 s with
    | (.lost, s1) => refuse .damaged s1
    | (.noGroup, s1) => if uplinkAgrees [] [] v.uplink then { state := repairAdj a v s1 } else refuse .inUse s1
    | (.found g, s1) =>
      match readEntriesOf g (standsOn s1 g) s1 with
      | (false, s2) => refuse .damaged s2
      | (true, s2) =>
        let others := (s2.group g).members.filter (fun m => decide (m.adj ≠ a))
        match readAdjs false (others.map (·.adj)) s2 with
        | (false, s3) => refuse .damaged s3
        | (true, s3) =>
          if uplinkAgrees (standsOn s3 g) (validUplinks s3 others) v.uplink then { state := repairAdj a v s3 }
          else refuse .inUse s3

/-- ADJ_WRITE (R4 to R6), table fault first (R157). -/
def performAdjWrite (adj : Half) (port : Byte) (rewrite : Half) (uplink : Byte) (s : State) : CmdOut :=
  let a := adj.toNat
  if s.rck.tableFault then refuse .damaged s
  else if Config.adjCapacity ≤ a then refuse .range s
  else if Config.ports ≤ port.toNat then refuse .range s
  else
    match uplinkField uplink with
    | none => refuse .range s
    | some u =>
      match readFields false [.adjRefs a, .adjStatus a] s with
      | (false, s1) => refuse .damaged s1
      | (true, s1) =>
        if (s1.adj a).refs = 0 then
          { state := writeAdj a (writtenAdj port.toNat rewrite.toNat u (s1.adj a)) s1 }
        else
          let s2 := readAdjContent a s1
          let v := writtenAdj port.toNat rewrite.toNat u (s2.adj a)
          match (s2.adj a).status with
          | .damaged => writeDamagedAdj a v s2
          | .valid => if (s2.adj a).uplink = u then { state := writeAdj a v s2 } else refuse .inUse s2
          | .invalid => { state := writeAdj a v s2 }

/-! ### ADJ_DELETE (R7) -/

/-- ADJ_DELETE (R7), table fault first (R157). -/
def performAdjDelete (adj : Half) (s : State) : CmdOut :=
  let a := adj.toNat
  if s.rck.tableFault then refuse .damaged s
  else if Config.adjCapacity ≤ a then refuse .range s
  else
    match readField (.adjStatus a) s with
    | (false, s1) => refuse .damaged s1
    | (true, s1) =>
      if (s1.adj a).status = .invalid then refuse .notValid s1
      else
        match readField (.adjRefs a) s1 with
        | (false, s2) => refuse .damaged s2
        | (true, s2) => if (s2.adj a).refs = 0 then { state := writeAdj a {} s2 } else refuse .inUse s2

/-! ### References and lists (R8, R13, R14, R16) -/

/-- Writes an adjacency's reference count, both copies coded afresh (R149). -/
def modRefs (a : Nat) (f : Nat → Nat) (s : State) : State :=
  writeUnits (copiesOf (.adjRefs a)) (modAdj a (fun r => { r with refs := f r.refs }) s)
/-- Writes a backup's referrer count, both copies coded afresh (R149). -/
def modReferrers (b : Option Nat) (f : Nat → Nat) (s : State) : State :=
  match b with
  | none => s
  | some g => writeUnits (copiesOf (.groupReferrers g)) (modGroup g (fun r => { r with referrers := f r.referrers }) s)
/-- Adds 1 to an adjacency's reference count (R8). -/
def addRef (a : Nat) : State → State := modRefs a (· + 1)
/-- Subtracts 1 from an adjacency's reference count (R8). -/
def dropRef (a : Nat) : State → State := modRefs a (· - 1)
/-- Adds 1 to a backup's referrer count (R16). -/
def addReferrer (b : Option Nat) : State → State := modReferrers b (· + 1)
/-- Subtracts 1 from a backup's referrer count (R16). -/
def dropReferrer (b : Option Nat) : State → State := modReferrers b (· - 1)

/-- Releases a group's references (R20, R21). -/
def dropReferences (g : Group) (s : State) : State :=
  dropReferrer g.backup (forEach (g.members.map (·.adj)) dropRef s)

/-- Takes the references of a member list and a backup (R19). -/
def addReferences (adjs : List Nat) (backup : Option Nat) (s : State) : State :=
  addReferrer backup (forEach adjs addRef s)

/-- The uplink set of a member list's adjacencies, rising (R13). -/
def uplinkSet (s : State) (adjs : List Nat) : List Nat :=
  allUplinks.filter (fun u => adjs.any (fun a => decide ((s.adj a).uplink = some u)))

/-- The lists a group joins and the lists it leaves for a new uplink set (R14). -/
def listsAdded (s : State) (g : Nat) (set : List Nat) : List Nat := set.filter (fun u => decide (g ∉ s.depList u))
def listsRemoved (s : State) (g : Nat) (set : List Nat) : List Nat :=
  (standsOn s g).filter (fun u => decide (u ∉ set))

/-- The unit of one dependency entry, coded afresh when it is written or freed. -/
def entryUnit (u g : Nat) : RecUnit → Bool := fun v => decide (v = .entry u g)

/-- Removes a group from uplink `u`'s list and returns its entry to the pool (R14). -/
def removeEntry (g u : Nat) (s : State) : State :=
  writeUnits (entryUnit u g)
    (modDpx (fun d => { d with lists := tableSet [] u (setErase g (tableGet [] d.lists u)) d.lists, free := d.free + 1 }) s)

/-- Inserts a group into uplink `u`'s list, taking one free entry (R14). -/
def insertEntry (g u : Nat) (s : State) : State :=
  writeUnits (entryUnit u g)
    (modDpx (fun d => { d with lists := tableSet [] u (setInsert g (tableGet [] d.lists u)) d.lists, free := d.free - 1 }) s)

/-- Reads every entry of the lists to be changed; stops at one that reads uncorrectable (R154; log entry 14). -/
def readLists : List Nat → State → Bool × State
  | [], s => (true, s)
  | u :: l, s =>
    match readEntries u (s.depList u) s with
    | (true, s1) => readLists l s1
    | (false, s1) => (false, s1)

/-- The list changes of an accepted GROUP_WRITE or GROUP_DELETE: removals, then insertions; none of them when an entry
reads uncorrectable (R14, R154). -/
def changeLists (g : Nat) (set : List Nat) (s : State) : State :=
  let out := listsRemoved s g set
  let into := listsAdded s g set
  match readLists (out ++ into) s with
  | (true, s1) => forEach into (insertEntry g) (forEach out (removeEntry g) s1)
  | (false, s1) => s1

/-! ### GROUP_WRITE (R17 to R20) -/

/-- The bucket count a class names (R188). -/
def bucketClassOf (b : Byte) : Option BucketCount :=
  if b.toNat = 0 then some .b16 else if b.toNat = 1 then some .b32 else if b.toNat = 2 then some .b64 else none

/-- The stripe mode a code names (R188). -/
def stripeOf (b : Byte) : Option Stripe :=
  if b.toNat = 0 then some .contiguous else if b.toNat = 1 then some .round
  else if b.toNat = 2 then some .pairs else none

/-- The empty policy a code names (R188). -/
def policyOf (b : Byte) : Option Policy :=
  if b.toNat = 0 then some .discard else if b.toNat = 1 then some .punt else none

/-- A flag field of a command: 0 means no, any other value yes (R186). -/
def flagOf (b : Byte) : Bool := decide (b.toNat ≠ 0)

/-- Check 6 of R18: each member's adjacency is VALID, in index order. -/
def checkMembers : List MemberArg → State → Option Status × State
  | [], s => (none, s)
  | m :: l, s =>
    match readField (.adjStatus m.adj.toNat) s with
    | (false, s1) => (some .damaged, s1)
    | (true, s1) =>
      if (s1.adj m.adj.toNat).status = .invalid then (some .notValid, s1)
      else
        let s2 := readAdjContent m.adj.toNat s1
        if (s2.adj m.adj.toNat).status = .damaged then (some .damaged, s2) else checkMembers l s2

/-- Check 8 of R18, its parts in order. A backup field of 0xFFFF is absent (R186). -/
def checkBackup (g : Nat) (backup : Half) (s : State) : Option Status × State :=
  let b := backup.toNat
  if b = 65535 then (none, s)
  else if Config.groupCapacity ≤ b then (some .range, s)
  else
    match readField (.groupStatus b) s with
    | (false, s1) => (some .damaged, s1)
    | (true, s1) =>
      if (s1.group b).status ≠ .installed then (some .notInstalled, s1)
      else if b = g then (some .backupChain, s1)
      else
        match readField (.groupBackup b) s1 with
        | (false, s2) => (some .damaged, s2)
        | (true, s2) =>
          if (s2.group b).backup ≠ none then (some .backupChain, s2)
          else
            match readField (.groupReferrers g) s2 with
            | (false, s3) => (some .damaged, s3)
            | (true, s3) => if (s3.group g).referrers ≠ 0 then (some .backupChain, s3) else (none, s3)

/-- The backup a backup field names. -/
def backupField (backup : Half) : Option Nat := if backup.toNat = 65535 then none else some backup.toNat

/-- The duplicated fields that releasing a group's references and changing the group read: its own, its members' links,
and the counts of the adjacencies and the backup it names. -/
def releaseFields (g : Nat) (r : Group) : List DupField :=
  headerFields g ++ (List.range r.members.length).map (DupField.memberLink g)
    ++ r.members.map (fun m => DupField.adjRefs m.adj)
    ++ (match r.backup with | none => [] | some b => [DupField.groupReferrers b])

/-- The duplicated fields that taking new references reads. -/
def acquireFields (adjs : List Nat) (backup : Option Nat) : List DupField :=
  adjs.map DupField.adjRefs ++ (match backup with | none => [] | some b => [DupField.groupReferrers b])

/-- The duplicated fields GROUP_WRITE changes: those of the new references, the group's own, and the old references of
a group that holds any. -/
def groupWriteFields (g : Nat) (r : Group) (adjs : List Nat) (backup : Option Nat) : List DupField :=
  acquireFields adjs backup ++ (if referencing r then releaseFields g r else headerFields g)

/-- The units of group `g`'s record. -/
def groupUnits (g : Nat) : RecUnit → Bool
  | .headerContent g' => decide (g' = g)
  | .memberContent g' _ => decide (g' = g)
  | .bucket g' _ => decide (g' = g)
  | .copy f _ =>
    match f with
    | .groupStatus g' => decide (g' = g)
    | .groupRevision g' => decide (g' = g)
    | .groupReferrers g' => decide (g' = g)
    | .groupBackup g' => decide (g' = g)
    | .memberLink g' _ => decide (g' = g)
    | .adjStatus _ => false
    | .adjRefs _ => false
  | _ => false

/-- A member record as GROUP_WRITE gives it: a weight of 0 is stored as 1 (R11). -/
def memberOf (m : MemberArg) : Member :=
  { adj := m.adj.toNat, weight := max m.weight.toNat 1, enabled := flagOf m.enabled, withdrawn := false,
    homeCount := 0 }

/-- The record GROUP_WRITE writes and deals (R19 steps 3 and 4), status, revision and referrer count kept. -/
def writtenGroup (a : GroupArgs) (B : BucketCount) (st : Stripe) (po : Policy) (old : Group) : Group :=
  deal { old with
    bucketCount := B
    stripe := st
    offset := a.offset.toNat
    backup := backupField a.backup
    policy := po
    notify := flagOf a.notify
    members := a.members.map memberOf }

/-- The effects of an accepted GROUP_WRITE (R19, R20), in the order of R19. -/
def installGroup (a : GroupArgs) (B : BucketCount) (st : Stripe) (po : Policy) (s : State) : CmdOut :=
  let g := a.group.toNat
  let adjs := a.members.map (fun m => m.adj.toNat)
  let old := s.group g
  let set := uplinkSet s adjs
  let s1 := if referencing old then dropReferences old s else s
  let s2 := changeLists g set (addReferences adjs (backupField a.backup) s1)
  let s3 := writeUnits (groupUnits g) (modGroup g (writtenGroup a B st po) s2)
  match settleRecord false g s3 with
  | (_, s4) =>
    let s5 := leaveRebuild g (publish g (modGroup g (fun r => { r with status := .installed }) s4))
    { clamped := a.members.any (fun m => decide (m.weight.toNat = 0))
      result := .groupWritten (s5.group g).revision (s5.group g).liveCount
      state := s5 }

/-- The net need of R14 exceeds the free entries. -/
def poolTooSmall (s : State) (g : Nat) (set : List Nat) : Bool :=
  decide (s.dpx.free + (listsRemoved s g set).length < (listsAdded s g set).length)

/-- GROUP_WRITE (R17 to R20), table fault first (R157). The duplicated fields that it changes are read after the ten
checks of R18, so that a failed check is answered before a lost field is found (log entry 14). -/
def performGroupWrite (a : GroupArgs) (s : State) : CmdOut :=
  let g := a.group.toNat
  let adjs := a.members.map (fun m => m.adj.toNat)
  if s.rck.tableFault then refuse .damaged s
  else if Config.groupCapacity ≤ g then refuse .range s
  else if a.members.length = 0 ∨ 16 < a.members.length then refuse .range s
  else
    match bucketClassOf a.bucketClass with
    | none => refuse .range s
    | some B =>
      match stripeOf a.stripe, policyOf a.policy with
      | some st, some po =>
        if adjs.any (fun x => decide (Config.adjCapacity ≤ x)) then refuse .range s
        else
          match checkMembers a.members s with
          | (some e, s1) => refuse e s1
          | (none, s1) =>
            if ¬ adjs.Nodup then refuse .duplicateMember s1
            else
              match checkBackup g a.backup s1 with
              | (some e, s2) => refuse e s2
              | (none, s2) =>
                if s2.rck.dependencyPending then refuse .damaged s2
                else if poolTooSmall s2 g (uplinkSet s2 adjs) then refuse .poolFull s2
                else
                  match readFields false (groupWriteFields g (s2.group g) adjs (backupField a.backup)) s2 with
                  | (false, s3) => refuse .damaged s3
                  | (true, s3) => installGroup a B st po s3
      | _, _ => refuse .range s

/-! ### GROUP_DELETE (R21) -/

/-- A group's record after GROUP_DELETE, before the publish (R21 step 5). -/
def deletedGroup (r : Group) : Group := { revision := r.revision, referrers := r.referrers }

/-- The effects of an accepted GROUP_DELETE (R21). -/
def deleteGroup (g : Nat) (s : State) : CmdOut :=
  let s1 := changeLists g [] (dropReferences (s.group g) s)
  let s2 := modTwr (fun t => { t with depleted := setErase g t.depleted }) s1
  let s3 := publish g (writeUnits (groupUnits g) (modGroup g deletedGroup (leaveRebuild g s2)))
  { result := .revision (s3.group g).revision, state := s3 }

/-- GROUP_DELETE (R21), table fault first (R157). -/
def performGroupDelete (group : Half) (s : State) : CmdOut :=
  let g := group.toNat
  if s.rck.tableFault then refuse .damaged s
  else if Config.groupCapacity ≤ g then refuse .range s
  else
    match readField (.groupStatus g) s with
    | (false, s1) => refuse .damaged s1
    | (true, s1) =>
      if (s1.group g).status = .notInstalled then refuse .notInstalled s1
      else
        match readField (.groupReferrers g) s1 with
        | (false, s2) => refuse .damaged s2
        | (true, s2) =>
          if (s2.group g).referrers ≠ 0 then refuse .inUse s2
          else if s2.rck.dependencyPending then refuse .damaged s2
          else
            match readFields false (releaseFields g (s2.group g)) s2 with
            | (false, s3) => refuse .damaged s3
            | (true, s3) => deleteGroup g s3

/-! ### MEMBER_SET (R22) -/

/-- Stores a member's enabled flag. -/
def storeEnabled (g i : Nat) (v : Bool) : State → State :=
  modGroup g (fun r => { r with members := r.members.modify i (fun m => { m with enabled := v }) })

/-- MEMBER_SET (R22), table fault first (R157). The header and every member record are read before check 3 and whether
or not the flag changes (log entry 14); one that reads uncorrectable ends the command before the flag is stored (R44),
and so does a field of a member's adjacency that is found lost (R157). -/
def performMemberSet (group : Half) (index enabled : Byte) (s : State) : CmdOut :=
  let g := group.toNat
  let i := index.toNat
  if s.rck.tableFault then refuse .damaged s
  else if Config.groupCapacity ≤ g then refuse .range s
  else
    match readField (.groupStatus g) s with
    | (false, s1) => refuse .damaged s1
    | (true, s1) =>
      if (s1.group g).status = .notInstalled then refuse .notInstalled s1
      else if (s1.group g).status = .damaged then refuse .damaged s1
      else
        let s2 := readMembers false g (readHeader false g s1)
        if (s2.group g).status ≠ .installed then refuse .damaged s2
        else
          match (s2.group g).members[i]? with
          | none => refuse .range s2
          | some m =>
            if m.enabled = flagOf enabled then { result := .revision (s2.group g).revision, state := s2 }
            else
              match readAdjs true ((s2.group g).members.map (·.adj)) s2 with
              | (false, s3) => refuse .damaged s3
              | (true, s3) =>
                match settleRecord false g (storeEnabled g i (flagOf enabled) s3) with
                | (_, s4) =>
                  let s5 := publish g s4
                  { result := .revision (s5.group g).revision, state := s5 }

end Sys2Proof.Machine
end

