-- ==== Sys2Proof/Machine/ReadCommands.lean ====
section
/-!
DEFINITION. The commands that the command engine, the resolve unit, the walker, the evidence unit and the notification
unit perform at the instant they are taken (R63, R107, R108, R144, R148, R170 to R173, R177, R178).
-/

namespace Sys2Proof.Machine

open Sys2Proof

/-! ### Command engine (R170 to R173) -/

/-- Whole seconds since device reset, saturating at 32 bits (R170). -/
def secondsSinceReset (s : State) : Nat := sat32 (s.now / 1000000)

/-- IDENTIFY (R170). -/
def performIdentify (s : State) : CmdOut := { result := .identity (secondsSinceReset s), state := s }

/-- What ADJ_READ returns of a record whose reads have been made (R171). -/
def adjView (r : Adj) : Result :=
  match r.status with
  | .invalid => .adjacency .invalid 0 0 none 0
  | .valid => .adjacency .valid r.port r.rewrite r.uplink r.refs
  | .damaged => .adjacency .damaged 0 0 none r.refs

/-- ADJ_READ (R2, R149, R153, R171). A lost reference count is returned as it stands in storage, which keeps the value it last
held (R157). -/
def performAdjRead (adj : Half) (s : State) : CmdOut :=
  let a := adj.toNat
  if Config.adjCapacity ≤ a then refuse .range s
  else
    let s1 := readAdjReturned a s
    { result := adjView (s1.adj a), state := s1 }

/-- GROUP_READ of a DAMAGED group: status DAMAGED with its three fields (R2, R171); a lost backup link is returned as
absent (log entry 16) and a lost revision as 0 (R157). -/
def readDamagedGroup (g : Nat) (s : State) : CmdOut :=
  match readField (.groupBackup g) s with
  | (okBackup, s1) =>
    match readField (.groupRevision g) s1 with
    | (okRevision, s2) =>
      { status := .damaged
        result := .damagedGroup (if okBackup then (s2.group g).backup else none)
          (if okRevision then (s2.group g).revision else 0)
        state := s2 }

/-- GROUP_READ of an INSTALLED group (R171). The backup referrer count and rebuild pending are as they stand at the
read (R16, R151; log entry 16). -/
def readInstalledGroup (g : Nat) (s : State) : CmdOut :=
  let s1 := readMembers false g (readHeader false g s)
  if (s1.group g).status = .installed then
    match readBuckets g (List.range (s1.group g).buckets.length) s1 with
    | (bad, s2) =>
      { result := .group
          { group := s2.group g
            rebuildPending := decide (g ∈ s2.rck.rebuildList)
            depleted := decide (g ∈ s2.twr.depleted)
            buckets := (s2.group g).buckets.mapIdx (fun b k => if b ∈ bad then none else some k) }
        state := s2 }
  else readDamagedGroup g s1

/-- GROUP_READ (R2, R171). -/
def performGroupRead (group : Half) (s : State) : CmdOut :=
  let g := group.toNat
  if Config.groupCapacity ≤ g then refuse .range s
  else
    let s1 := (readField (.groupStatus g) s).2
    match (s1.group g).status with
    | .notInstalled => refuse .notInstalled s1
    | .damaged => readDamagedGroup g s1
    | .installed => readInstalledGroup g s1

/-- The most handles one DEPLETED_LIST returns (R172). -/
def depletedLimit : Nat := 32

/-- DEPLETED_LIST (R172). -/
def performDepletedList (start : Half) (s : State) : CmdOut :=
  if Config.groupCapacity ≤ start.toNat then refuse .range s
  else
    let hs := s.twr.depleted.filter (fun g => decide (start.toNat ≤ g))
    { result := .handles (hs.take depletedLimit) (decide (depletedLimit < hs.length)), state := s }

/-- What COUNTERS_READ returns (R173). -/
def countersView (s : State) : CountersView :=
  { answers := s.rsu.answerCounts
    tests := s.rsu.testCounts
    substitutions := allUplinks.map s.substitution
    strays := s.uma.strays
    badNotices := s.evu.badNotices
    corrected := s.rck.corrected
    uncorrected := s.rck.uncorrected
    lost := s.rck.lostCount
    overflow := s.cme.overflow
    discards := s.fsl.discards
    overruns := s.fsl.overruns
    free := s.dpx.free
    tableFault := s.rck.tableFault
    dependencyPending := s.rck.dependencyPending }

/-- Every counter of R173 at 0. -/
def clearCounters (s : State) : State :=
  { s with
    rsu := { s.rsu with answerCounts := {}, testCounts := {}, substitutions := [] }
    uma := { s.uma with strays := 0 }
    evu := { s.evu with badNotices := 0 }
    rck := { s.rck with corrected := {}, uncorrected := {}, lostCount := 0 }
    cme := { s.cme with overflow := 0 }
    fsl := { s.fsl with discards := 0, overruns := 0 } }

/-- COUNTERS_READ (R62, R173). -/
def performCountersRead (clear : Byte) (s : State) : CmdOut :=
  { result := .counters (countersView s), state := if flagOf clear then clearCounters s else s }

/-! ### Resolve unit (R63, R64) -/

/-- RESOLVE_TEST (R63, R64). -/
def performResolveTest (group hash : Half) (s : State) : CmdOut :=
  match derive group.toNat hash.toNat s with
  | (d, s1) =>
    { result := .resolved d.content d.supplier
      state := modRsu (fun r => { r with testCounts := r.testCounts.bump d.content.verdict }) s1 }

/-! ### Walker (R144, R148) -/

/-- JOB_STATUS (R148). -/
def performJobStatus (s : State) : CmdOut :=
  { result := .jobs
      { walker := s.rwk
        levels := allUplinks.map (fun u => (level s u, (s.mon u).converged))
        rebuildCount := s.rck.rebuildList.length
        rebuildLowest := s.rck.rebuildList.head?
        dependencyPending := s.rck.dependencyPending
        tableFault := s.rck.tableFault
        readAt := s.now
        runCount := s.twr.runCount }
    state := s }

/-- One audit interval after the present instant. -/
def auditExpiry (now seconds : Nat) : Nat := now + 1000000 * seconds

/-- The stored audit interval of a value given: 0 is off, more than 3600 is 3600 (R144). -/
def storedInterval (v : Nat) : Option Nat := if v = 0 then none else some (min v 3600)

/-- The walker's audit items after AUDIT_SET (the table of R144). -/
def auditAfter (now : Nat) (i : Option Nat) (w : Rwk) : Rwk :=
  match w.audit, i with
  | .off, none => { w with auditInterval := none }
  | .off, some t => { w with auditInterval := some t, audit := .waiting (auditExpiry now t) }
  | .waiting _, none => { w with auditInterval := none, audit := .off, auditCursor := none }
  | .waiting _, some t => { w with auditInterval := some t, audit := .waiting (auditExpiry now t) }
  | .pass, none => { w with auditInterval := none, audit := .off, auditCursor := none }
  | .pass, some t => { w with auditInterval := some t }

/-- AUDIT_SET (R144). -/
def performAuditSet (interval : Half) (s : State) : CmdOut :=
  let s1 := modRwk (auditAfter s.now (storedInterval interval.toNat)) s
  { clamped := decide (3600 < interval.toNat)
    result := .audit s1.rwk.auditInterval s1.rwk.audit
    state := s1 }

/-! ### Evidence unit (R107, R108) -/

/-- The target of an evidence command (R188). -/
inductive Target where
  | line
  | port
deriving DecidableEq, Repr

/-- The target a code names whose index is in its range (R107, checks 1 and 2). -/
def targetOf (target index : Byte) : Option Target :=
  if target.toNat = 0 then (if index.toNat < Config.losLines then some .line else none)
  else if target.toNat = 1 then (if index.toNat < Config.ports then some .port else none)
  else none

/-- A stored assert filter (R107). -/
def storedAssert (v : Nat) : Nat := min (v / 4 * 4) 1020
/-- A stored clear filter (R107). -/
def storedClear (v : Nat) : Nat := min (max v 1) 255
/-- A stored guard time (R107). -/
def storedGuard (v : Nat) : Nat := min v 255

/-- EVIDENCE_WRITE (R107). -/
def performEvidenceWrite (target index : Byte) (assertFilter clearFilter guardTime : Half) (s : State) : CmdOut :=
  match targetOf target index with
  | none => refuse .range s
  | some .line =>
    let a := storedAssert assertFilter.toNat
    let c := storedClear clearFilter.toNat
    { clamped := decide (a ≠ assertFilter.toNat) || decide (c ≠ clearFilter.toNat)
      result := .lineSet a c
      state := setLine index.toNat { s.line index.toNat with assertFilter := a, clearFilter := c } s }
  | some .port =>
    let g := storedGuard guardTime.toNat
    { clamped := decide (g ≠ guardTime.toNat)
      result := .portSet g
      state := setPort index.toNat { s.port index.toNat with guardTime := g } s }

/-- EVIDENCE_READ (R108). It finds the monitors by their active bindings as they stand, and reads no monitor record
through record check (log entry 14). -/
def performEvidenceRead (target index clear : Byte) (s : State) : CmdOut :=
  let i := index.toNat
  match targetOf target index with
  | none => refuse .range s
  | some .line =>
    { result := .line (s.line i) s.now (activeOnLine s i)
      state := if flagOf clear then setLine i { s.line i with shortPulses := 0, assertions := 0 } s else s }
  | some .port =>
    { result := .port (s.port i) s.now (activeOnPort s i)
      state := if flagOf clear then setPort i { s.port i with errored := 0, suppressed := 0 } s else s }

/-! ### Notification unit (R177, R178) -/

/-- The class a field names (R188). -/
def classOf (b : Byte) : Option Nat := if b.toNat < 4 then some b.toNat else none

/-- The mask a field names: 0 MASKED, 1 UNMASKED (R188). -/
def maskOf (b : Byte) : Option Bool :=
  if b.toNat = 0 then some true else if b.toNat = 1 then some false else none

/-- The ranks of a run. -/
def runOf (first last : Nat) : List Nat := (List.range (last + 1 - first)).map (fun i => first + i)

/-- One source takes a mask and a class; a discard clears its pending flag (R178). -/
def configureSource (masked : Bool) (cls : Nat) (discard : Bool) (r : Nat) (s : State) : State :=
  setSource r { pending := (s.source r).pending && !discard, masked := masked, cls := cls } s

/-- EVENT_CONFIG (R178). -/
def performEventConfig (first last mask cls discard : Byte) (s : State) : CmdOut :=
  if sourceCount ≤ first.toNat ∨ sourceCount ≤ last.toNat then refuse .range s
  else if last.toNat < first.toNat then refuse .range s
  else
    match maskOf mask, classOf cls with
    | some m, some c =>
      let run := runOf first.toNat last.toNat
      let s1 := forEach run (configureSource m c (flagOf discard)) s
      { result := .eventConfig (run.map (fun r => (s1.source r).pending)) (classCounts s1), state := s1 }
    | _, _ => refuse .range s

/-- A source's pending flag is cleared. -/
def clearPending (r : Nat) (s : State) : State := setSource r { s.source r with pending := false } s

/-- EVENT_FETCH (R177). -/
def performEventFetch (cls : Byte) (s : State) : CmdOut :=
  match classOf cls with
  | none => refuse .range s
  | some v => { result := .ranks (countedRanks s v), state := forEach (countedRanks s v) clearPending s }

end Sys2Proof.Machine
end

