-- ==== Sys2Proof/Machine/MonitorCommands.lean ====
section
/-!
DEFINITION. The monitor commands (R72, R80, R81, R84 to R87, R112) and CLEAR_LATCH (R96).
-/

namespace Sys2Proof.Machine

open Sys2Proof

/-- The state a monitor command answers with. -/
def monitorAnswer (n : Nat) (s : State) : CmdOut := { result := .monitorState (s.mon n).state, state := s }

/-! ### MONITOR_WRITE: fields (R84, R112) -/

/-- A one-byte field that names a number below `bound` or, as 0xFF, none (R186). -/
def numberField (bound : Nat) (b : Byte) : Option (Option Nat) :=
  if b.toNat = 255 then some none else if b.toNat < bound then some (some b.toNat) else none

/-- The reaction a code names (R188). -/
def reactionOf (b : Byte) : Option Reaction :=
  if b.toNat = 0 then some .ignore else if b.toNat = 1 then some .notify
  else if b.toNat = 2 then some .suspect else if b.toNat = 3 then some .down else none

/-- The latch mode a code names (R188). -/
def latchModeOf (b : Byte) : Option LatchMode :=
  if b.toNat = 0 then some .follow else if b.toNat = 1 then some .latch else none

/-- A value held within bounds. -/
def clampTo (lo hi v : Nat) : Nat := min (max v lo) hi

/-- The stored down threshold (R112). -/
def storedDown (v : Nat) : Nat := max v 2
/-- The stored suspect threshold under a stored down threshold (R112). -/
def storedSuspect (down v : Nat) : Nat := min (max v 1) (down - 1)
/-- The stored clear threshold under a stored suspect threshold (R112). -/
def storedClearAt (suspect v : Nat) : Nat := min v (suspect - 1)

/-- The configuration that an accepted write stores beside the staged fields (R84, R112). -/
def storedCfg (a : MonitorArgs) (los port peer : Reaction) (lm : LatchMode) : MonCfg :=
  let down := storedDown a.downAt.toNat
  let suspect := storedSuspect down a.suspectAt.toNat
  { losReaction := los
    portReaction := port
    peerReaction := peer
    latchMode := lm
    echoLos := flagOf a.echoLos
    echoPort := flagOf a.echoPort
    drain := flagOf a.drain
    signal := flagOf a.signal
    priority := min a.priority.toNat 3
    holdBase := clampTo 1 1000 a.holdBase.toNat
    flapWindow := clampTo 1 600 a.flapWindow.toNat
    qualifyTime := min a.qualifyTime.toNat 10000
    txInterval := clampInterval a.txInterval.toNat
    minRx := clampInterval a.minRx.toNat
    qualifyCount := clampTo 1 15 a.qualifyCount.toNat
    missWeight := clampTo 1 64 a.missWeight.toNat
    errorWeight := min a.errorWeight.toNat 64
    recoveryStep := clampTo 1 16 a.recoveryStep.toNat
    downAt := down
    suspectAt := suspect
    clearAt := storedClearAt suspect a.clearAt.toNat }

/-- A stored value differs from the value given (R84, R112). -/
def cfgClamped (a : MonitorArgs) (c : MonCfg) : Bool :=
  decide ([c.priority, c.holdBase, c.flapWindow, c.qualifyTime, c.txInterval, c.minRx, c.qualifyCount, c.missWeight,
      c.errorWeight, c.recoveryStep, c.downAt, c.suspectAt, c.clearAt]
    ≠ [a.priority.toNat, a.holdBase.toNat, a.flapWindow.toNat, a.qualifyTime.toNat, a.txInterval.toNat, a.minRx.toNat,
      a.qualifyCount.toNat, a.missWeight.toNat, a.errorWeight.toNat, a.recoveryStep.toNat, a.downAt.toNat,
      a.suspectAt.toNat, a.clearAt.toNat])

/-- The staged fields as they are stored: without a session the discriminators are 0 and the mask all zeros (R84). -/
def storedBinding (a : MonitorArgs) (los port : Option Nat) : Binding :=
  if flagOf a.session then
    { los := los, port := port, session := true, localDisc := a.localDisc, remoteDisc := a.remoteDisc,
      matchMask := a.matchMask }
  else { los := los, port := port }

/-- Another monitor holds a local discriminator, active or pending (R84, R111). -/
def discTaken (s : State) (n : Nat) (d : Half) : Bool :=
  allUplinks.any (fun k =>
    decide (k ≠ n) && (decide ((s.mon k).active.localDisc = d)
      || decide ((s.mon k).pending.map (·.localDisc) = some d)))

/-- The uniqueness check reads every other monitor's record (R149, R156). -/
def readOthers (n : Nat) (s : State) : State := forEach (allUplinks.filter (fun k => decide (k ≠ n))) readMonitor s

/-- Check 5 of R84: `true` refuses with DUPLICATE. -/
def checkSession (n : Nat) (a : MonitorArgs) (s : State) : Bool × State :=
  if flagOf a.session then
    if a.localDisc = 0 then (true, s)
    else
      let s1 := readOthers n s
      (discTaken s1 n a.localDisc, s1)
  else (false, s)

/-! ### MONITOR_WRITE: effects (R84 to R86, R97, R104) -/

/-- The latch after a write of the latch mode (R97), from the filtered state of the line active after the write. -/
def latchAfterWrite (old new : LatchMode) (filtered latch : Bool) : Bool :=
  match old, new with
  | .latch, .follow => false
  | .follow, .latch => filtered
  | .follow, .follow => latch
  | .latch, .latch => latch

/-- The staged fields of a write in DISABLED become active (R86); a latch is clear while the line is none (R95). -/
def bindDisabled (s : State) (b : Binding) (m : Monitor) : Monitor :=
  { bindTo s b m with latch := decide (b.los ≠ none) && m.latch }

/-- The record after step 1 and step 2 of R84. -/
def writtenMonitor (s : State) (c : MonCfg) (b : Binding) (m : Monitor) : Monitor :=
  let m1 := { m with cfg := c, damaged := false }
  let m2 :=
    match m.state with
    | .disabled => bindDisabled s b m1
    | .qualify => bindTo s b m1
    | .up => { m1 with pending := some b }
    | .suspect => { m1 with pending := some b }
    | .down => { m1 with pending := some b }
  { m2 with latch := latchAfterWrite m.cfg.latchMode c.latchMode (lineFiltered s m2.active.los) m2.latch }

/-- The hold or release that a write of signal-on-down in DOWN makes (R85, R100). -/
def signalWritten (old new : Monitor) (s : State) : State :=
  match heldPort old, heldPort new with
  | none, some p => holdPort p s
  | some p, none => releasePort p s
  | none, none => s
  | some _, some _ => s

/-- A held hold-down that a write leaves without a DOWN-level source is re-armed (R79). -/
def releaseHeld (n : Nat) (s : State) : State :=
  let m := s.mon n
  match m.state, m.hold, downCause false m with
  | .down, .held, none => setMon n { m with hold := .running (s.now + holdTime m) } s
  | _, _, _ => s

/-- A write in QUALIFY under a new binding restarts qualification (R86, R113). Suppression for LOS that the write ends
(`endsLos`) ends before, with the line's state for the latch (R104). A write that takes the monitor off a suppressing
port by its binding alone is no such end, and leaves the latch as it was where the line is unchanged (log entry 36). -/
def rebound (n : Nat) (old : Monitor) (endsLos : Bool) (s : State) : State :=
  let s1 := if endsLos then setLatchFromLine n s else s
  let m := s1.mon n
  let s2 := if sendsProbes m && !sendsProbes old then sendProbe n s1 else s1
  beginQualify n (decide (old.active.los ≠ m.active.los) || decide (old.active.port ≠ m.active.port))
    (decide (old.active.port ≠ m.active.port)) s2

/-- The LOS activity after a write of the latch mode, taken by the checks of the write (R97), held under suppression. -/
def latchModeWritten (n : Nat) (old : Monitor) (s : State) : State :=
  let m := s.mon n
  if m.state ≠ .disabled ∧ old.cfg.latchMode ≠ m.cfg.latchMode ∧ losSuppressed s m = false then
    setLos n (presentedLos s m) s
  else s

/-- The effects of an accepted MONITOR_WRITE: the record, the liveness a drain write changes, the hold a signal write
changes, the restart of qualification under a new binding or else the suppression that ends for the monitor, the checks,
and the suppression that ends for others (R84 to R86; log entry 25). -/
def writeMonitor (n : Nat) (c : MonCfg) (b : Binding) (s : State) : State :=
  let old := s.mon n
  let s1 := noteLiveness n (monLive old) (setMon n (writtenMonitor s c b old) s)
  let s2 := signalWritten old (s1.mon n) s1
  let cleared :=
    match old.active.port with
    | none => false
    | some p => clearedBetween s1 s2 p
  let endsLos := old.cfg.echoLos && boundSuppressing s old && (!c.echoLos || cleared)
  let endsPort := old.cfg.echoPort && boundSuppressing s old && (!c.echoPort || cleared)
  let s3 :=
    if old.state = .qualify ∧ old.active ≠ b then rebound n old endsLos s2
    else endSuppression n endsLos endsPort (latchModeWritten n old s2)
  let s4 := releaseHeld n (evaluate n false s3)
  if cleared then
    match old.active.port with
    | none => s4
    | some p => portCleared p [n] s4
  else s4

/-- Checks 2 to 4 of R84: the fields a write names. -/
def writeFields (a : MonitorArgs) : Option (Option Nat × Option Nat × Reaction × Reaction × Reaction × LatchMode) :=
  match numberField Config.losLines a.losLine, numberField Config.ports a.boundPort, reactionOf a.losReaction,
    reactionOf a.portReaction, reactionOf a.peerReaction, latchModeOf a.latchMode with
  | some l, some p, some r1, some r2, some r3, some lm => some (l, p, r1, r2, r3, lm)
  | _, _, _, _, _, _ => none

/-- MONITOR_WRITE (R84 to R86, R112). -/
def performMonitorWrite (a : MonitorArgs) (s : State) : CmdOut :=
  let n := a.monitor.toNat
  if Config.uplinks ≤ n then refuse .range s
  else
    let s1 := readMonitor n s
    match writeFields a with
    | none => refuse .range s1
    | some (l, p, r1, r2, r3, lm) =>
      match checkSession n a s1 with
      | (true, s2) => refuse .duplicate s2
      | (false, s2) =>
        let c := storedCfg a r1 r2 r3 lm
        { monitorAnswer n (writeMonitor n c (storedBinding a l p) s2) with clamped := cfgClamped a c }

/-! ### MONITOR_READ, ENABLE, DISABLE, FORCE_DOWN, RELEASE -/

/-- MONITOR_READ (R87). -/
def performMonitorRead (monitor clear : Byte) (s : State) : CmdOut :=
  let n := monitor.toNat
  if Config.uplinks ≤ n then refuse .range s
  else
    let s1 := readMonitor n s
    { result := .monitor (s1.mon n) s1.now
      state := if flagOf clear then modMon n (fun m => { m with noted := {}, rollover := false }) s1 else s1 }

/-- ENABLE (R72). -/
def performEnable (monitor : Byte) (s : State) : CmdOut :=
  let n := monitor.toNat
  if Config.uplinks ≤ n then refuse .range s
  else
    let s1 := readMonitor n s
    if (s1.mon n).damaged then refuse .damaged s1
    else if (s1.mon n).state ≠ .disabled then refuse .badState s1
    else monitorAnswer n (enterQualify n true .enable s1)

/-- DISABLE (R81). -/
def performDisable (monitor : Byte) (s : State) : CmdOut :=
  let n := monitor.toNat
  if Config.uplinks ≤ n then refuse .range s
  else
    let s1 := readMonitor n s
    monitorAnswer n (notifyCleared s1 n (disableMonitor n s1))

/-- Host evidence takes a value, as an evidence event (R80). -/
def setHost (n : Nat) (v : Bool) (s : State) : State :=
  evaluate n false (evidenceEvent n (modMon n (fun m => { m with hostActive := v }) s))

/-- FORCE_DOWN (R80). -/
def performForceDown (monitor : Byte) (s : State) : CmdOut :=
  let n := monitor.toNat
  if Config.uplinks ≤ n then refuse .range s
  else
    let s1 := readMonitor n s
    if (s1.mon n).damaged then refuse .damaged s1
    else if (s1.mon n).state = .disabled then refuse .badState s1
    else if (s1.mon n).hostActive then monitorAnswer n s1
    else monitorAnswer n (setHost n true s1)

/-- RELEASE (R80). -/
def performRelease (monitor : Byte) (s : State) : CmdOut :=
  let n := monitor.toNat
  if Config.uplinks ≤ n then refuse .range s
  else
    let s1 := readMonitor n s
    if (s1.mon n).damaged then refuse .damaged s1
    else if (s1.mon n).hostActive then monitorAnswer n (setHost n false s1)
    else monitorAnswer n s1

/-! ### CLEAR_LATCH (R96) -/

/-- The latch clears: an evidence event unless LOS is under suppression or the monitor is DISABLED (R96, R71, R103). -/
def clearLatch (n : Nat) (s : State) : State :=
  let s1 := modMon n (fun m => { m with latch := false }) s
  let m := s1.mon n
  if m.state = .disabled ∨ losSuppressed s1 m = true then s1
  else
    let s2 := setLos n false s1
    evaluate n false (if m.cfg.losReaction = .ignore then s2 else evidenceEvent n s2)

/-- CLEAR_LATCH (R96). The filtered state of a monitor without a LOS line is answered as clear (log entry 37). -/
def performClearLatch (monitor : Byte) (s : State) : CmdOut :=
  let n := monitor.toNat
  if Config.uplinks ≤ n then refuse .range s
  else
    let s1 := readMonitor n s
    let m := s1.mon n
    let filtered := lineFiltered s1 m.active.los
    let isSet := decide (m.cfg.latchMode = .latch) && m.latch
    let s2 := if isSet && !filtered then clearLatch n s1 else s1
    { stillAsserted := isSet && filtered
      result := .latch (s2.mon n).latch filtered
      state := s2 }

end Sys2Proof.Machine
end

