-- ==== Sys2Proof/Machine/Engine.lean ====
section
/-!
DEFINITION. The command engine (R162 to R169): delivering records, taking commands, completing them and placing
responses. A table command's operation stays in `cme.executing` from its taking to its completion (log entry 4).
-/

namespace Sys2Proof.Machine

open Sys2Proof

/-! ### Performing a command -/

/-- The five table commands (R164). -/
def isTable : HostCmd → Bool
  | .adjWrite _ _ _ _ => true
  | .adjDelete _ => true
  | .groupWrite _ => true
  | .groupDelete _ => true
  | .memberSet _ _ _ => true
  | .identify => false
  | .adjRead _ => false
  | .groupRead _ => false
  | .depletedList _ => false
  | .resolveTest _ _ => false
  | .monitorWrite _ => false
  | .monitorRead _ _ => false
  | .enable _ => false
  | .disable _ => false
  | .forceDown _ => false
  | .release _ => false
  | .clearLatch _ => false
  | .evidenceWrite _ _ _ _ _ => false
  | .evidenceRead _ _ _ => false
  | .jobStatus => false
  | .auditSet _ => false
  | .countersRead _ => false
  | .eventConfig _ _ _ _ _ => false
  | .eventFetch _ => false

/-- The command's own checks and effects (the table of section 9.6). -/
def perform (c : HostCmd) (s : State) : CmdOut :=
  match c with
  | .identify => performIdentify s
  | .adjWrite a p r u => performAdjWrite a p r u s
  | .adjDelete a => performAdjDelete a s
  | .adjRead a => performAdjRead a s
  | .groupWrite a => performGroupWrite a s
  | .groupDelete g => performGroupDelete g s
  | .groupRead g => performGroupRead g s
  | .memberSet g i e => performMemberSet g i e s
  | .depletedList g => performDepletedList g s
  | .resolveTest g h => performResolveTest g h s
  | .monitorWrite a => performMonitorWrite a s
  | .monitorRead m c => performMonitorRead m c s
  | .enable m => performEnable m s
  | .disable m => performDisable m s
  | .forceDown m => performForceDown m s
  | .release m => performRelease m s
  | .clearLatch m => performClearLatch m s
  | .evidenceWrite t i a c g => performEvidenceWrite t i a c g s
  | .evidenceRead t i c => performEvidenceRead t i c s
  | .jobStatus => performJobStatus s
  | .auditSet i => performAuditSet i s
  | .countersRead c => performCountersRead c s
  | .eventConfig f l m c d => performEventConfig f l m c d s
  | .eventFetch c => performEventFetch c s

/-! ### Responses (R166) -/

/-- The response record of what a command answers. -/
def responseOf (tag : Half) (code : Byte) (o : CmdOut) : Response :=
  { tag := tag, code := code, status := o.status, clamped := o.clamped, stillAsserted := o.stillAsserted,
    result := o.result }

/-- The response of a command that fails a header check (R165). -/
def headerRefusal (tag : Half) (code : Byte) (st : Status) : Response :=
  { tag := tag, code := code, status := st, clamped := false, stillAsserted := false, result := .refused }

/-- The response joins the tail of the response queue; RESPONSE is raised when the queue was empty (R166). -/
def enqueueResponse (r : Response) (s : State) : State :=
  let s1 := modCme (fun c => { c with responses := c.responses ++ [r] }) s
  if s.cme.responses = [] then raise rankResponse s1 else s1

/-- The placement of a response, after the events of its command (R166, R175; log entry 10). -/
def placeResponse (r : Response) (s : State) : State := flushVectors (classCounts s) (enqueueResponse r s)

/-! ### Taking a command (R164, R165) -/

/-- The engine can take a command: IDLE, with room for a response. -/
def canTake (s : State) : Bool := s.cme.executing.isNone && decide (s.cme.responses.length < Config.queueDepth)

/-- A command that is not a table command is performed and completes at its taking (R164). An IDLE walker that it gives
work claims the table writer here, before the engine takes its next command: of two operations that arrive together at a
free table writer, which R145 lets start in either order, the walker's is started first (log entry 39). -/
def performAtOnce (tag : Half) (c : HostCmd) (s : State) : State :=
  let o := perform c s
  placeResponse (responseOf tag c.code o) (endEvent s o.state)

/-- The engine takes a command whose code and length are right: table fault is checked, a table command claims the
table writer, any other is performed at once (R164, R165). -/
def takeCommand (tag : Half) (c : HostCmd) (s : State) : State :=
  if isTable c then
    if s.rck.tableFault then placeResponse (headerRefusal tag c.code .damaged) s
    else claimEngine (modCme (fun e => { e with executing := some { tag := tag, cmd := c } }) s)
  else performAtOnce tag c s

/-- The engine takes a record (R164, R165). -/
def takeRecord (r : List Byte) (s : State) : State :=
  match parseRecord r with
  | .ok c => takeCommand (recordTag r) c s
  | .error st => placeResponse (headerRefusal (recordTag r) (recordCode r) st) s

/-- The engine takes records while it can, at one instant, at most `fuel` of them (R164; log entry 5). A table command
taken at the instant at which an earlier command woke the walker finds the walker's operation started and waits for it
(R145 lets either start first; log entry 39). -/
def takeAll : Nat → State → State
  | 0, s => s
  | fuel + 1, s =>
    match s.cme.queue with
    | [] => s
    | r :: q =>
      if canTake s then takeAll fuel (takeRecord r (modCme (fun c => { c with queue := q }) s)) else s

/-- The engine takes every record it can take now. -/
def runEngine (s : State) : State := takeAll s.cme.queue.length s

/-! ### Delivering a record (R163) -/

/-- A record arriving at a full command queue is dropped (R163). -/
def commandOverflow (s : State) : State :=
  event (fun s => raise rankOverflow (modCme (fun c => { c with overflow := sat32 (c.overflow + 1) }) s)) s

/-- A write to the command window delivers one record, its bytes beyond the largest record ignored (R163). -/
def deliverRecord (bytes : List Byte) (s : State) : State :=
  if s.cme.queue.length < Config.queueDepth then
    runEngine (modCme (fun c => { c with queue := c.queue ++ [bytes.take Config.recordBytes] }) s)
  else commandOverflow s

/-! ### Completing a table command (R164, R166, R168) -/

/-- At completion the response is placed, unless it is discarded (R166, R168). -/
def finishTable (tag : Half) (c : HostCmd) (o : CmdOut) (s : State) : State :=
  if s.cme.discard then modCme (fun e => { e with executing := none, discard := false }) s
  else placeResponse (responseOf tag c.code o) (modCme (fun e => { e with executing := none }) s)

/-- The table writer performs the command in execution and the operation completes: its effects, its response, the
engine's next takings, the table writer's next operation, for which a table command taken here waits like one taken
before (R145, R146, R164; log entry 39). -/
def completeTable (tag : Half) (c : HostCmd) (s : State) : State :=
  let o := perform c s
  startNext (runEngine (finishTable tag c o (endEvent s o.state)))

/-! ### One host command as a step (log entry 4) -/

/-- The engine takes a command at the instant it arrives: IDLE, nothing queued, room for a response, and the record
within the largest size. -/
def ready (c : HostCmd) (s : State) : Bool := canTake s && decide (s.cme.queue = []) && c.fits

/-- The step of a command that the engine performs at its taking: taken at its arrival, or queued behind others. -/
def readStep (tag : Half) (c : HostCmd) (s : State) : State :=
  if ready c s then performAtOnce tag c s else deliverRecord (recordBytes tag c) s

/-- The table writer has started the engine's operation. -/
def granted (s : State) : Bool := decide (s.twr.performing = some .engine)

/-- The step of a table command: its performance when it is the command in execution and has been granted the table
writer; its arrival otherwise, performed at once when it finds engine and table writer free. -/
def tableStep (tag : Half) (c : HostCmd) (s : State) : State :=
  if s.cme.executing = some { tag := tag, cmd := c } then
    if granted s then completeTable tag c s else s
  else if ready c s then
    let s1 := takeCommand tag c s
    if s1.cme.executing.isSome && granted s1 then completeTable tag c s1 else s1
  else deliverRecord (recordBytes tag c) s

end Sys2Proof.Machine
end

