-- ==== Sys2Proof/Machine/HostMonitors.lean ====
section
/-!
DEFINITION. The meanings of the monitor commands and CLEAR_LATCH: their checks and effects are in
Machine/MonitorCommands.lean.
-/

namespace Sys2Proof.Machine

open Sys2Proof

/-- MONITOR_WRITE (R84 to R86, R112). -/
def execMonitorWrite (tag : Half) (args : MonitorArgs) (s : State) :
    Host.Outcome State Fault Refusal :=
  .next (readStep tag (.monitorWrite args) s)

/-- MONITOR_READ (R87). -/
def execMonitorRead (tag : Half) (monitor clear : Byte) (s : State) :
    Host.Outcome State Fault Refusal :=
  .next (readStep tag (.monitorRead monitor clear) s)

/-- ENABLE (R72). -/
def execEnable (tag : Half) (monitor : Byte) (s : State) :
    Host.Outcome State Fault Refusal :=
  .next (readStep tag (.enable monitor) s)

/-- DISABLE (R81). -/
def execDisable (tag : Half) (monitor : Byte) (s : State) :
    Host.Outcome State Fault Refusal :=
  .next (readStep tag (.disable monitor) s)

/-- FORCE_DOWN (R80). -/
def execForceDown (tag : Half) (monitor : Byte) (s : State) :
    Host.Outcome State Fault Refusal :=
  .next (readStep tag (.forceDown monitor) s)

/-- RELEASE (R80). -/
def execRelease (tag : Half) (monitor : Byte) (s : State) :
    Host.Outcome State Fault Refusal :=
  .next (readStep tag (.release monitor) s)

/-- CLEAR_LATCH (R96). -/
def execClearLatch (tag : Half) (monitor : Byte) (s : State) :
    Host.Outcome State Fault Refusal :=
  .next (readStep tag (.clearLatch monitor) s)

end Sys2Proof.Machine
end

