-- ==== Sys2Proof/Machine/HostPort.lean ====
section
/-!
DEFINITION. The meanings of the resets and of the route-processor port's own commands: DEVICE_RESET, RPP_RESET,
COMMAND_WINDOW_WRITE, RESPONSE_WINDOW_READ, IGNORED_WRITE, COMMAND_TAKE, VECTOR_MESSAGE_SEND (R90, R161 to R168, R176,
R179).
-/

namespace Sys2Proof.Machine

open Sys2Proof

/-- Lines sampled asserted at the end of reset are raw assertions at that instant (R92). -/
def sampleLines (levels : BitVec 16) (s : State) : State :=
  forEach (List.range Config.losLines) (fun l s => if levels.getLsbD l then rawChange l true s else s) s

/-- The part right after device reset; what waits and the free values' counter are the model's own and stay. -/
def resetState (s : State) : State := { State.reset with pending := s.pending, draws := s.draws }

/-- DEVICE_RESET (R90, R168, R179; the device reset values of every block), with the levels of LOS0 to LOS15 as sampled
at its end (R92). -/
def execDeviceReset (levels : BitVec 16) (s : State) : Host.Outcome State Fault Refusal :=
  .next (event (sampleLines levels) (resetState s))

/-- Every source becomes masked; pending flags and classes are kept (R179). -/
def maskAll (l : Table Source) : Table Source :=
  (l.map (fun e => (e.1, { e.2 with masked := true }))).filter (fun e => decide (e.2 ≠ {}))

/-- RPP_RESET (R168, R176, R179). -/
def execRppReset (s : State) : Host.Outcome State Fault Refusal :=
  .next (modNfu (fun n => { sources := maskAll n.sources, vectors := [] })
    (modCme (fun c => { c with queue := [], responses := [], discard := c.executing.isSome }) s))

/-- COMMAND_WINDOW_WRITE (R163). -/
def execCommandWindowWrite (bytes : List Byte) (s : State) : Host.Outcome State Fault Refusal :=
  .next (deliverRecord bytes s)

/-- RESPONSE_WINDOW_READ of `length` bytes (R167): the head response leaves the queue and the engine may take the next
command; an empty queue reads as zeros. -/
def execResponseWindowRead (length : Nat) (s : State) : Host.Outcome State Fault Refusal :=
  match s.cme.responses with
  | [] => .next (modOut (fun o => { o with hostRead := readBytes length [] }) s)
  | r :: rs =>
    .next (runEngine (modOut (fun o => { o with hostRead := readBytes length (responseBytes r) })
      (modCme (fun c => { c with responses := rs }) s)))

/-- What a host read addresses outside the response window (R161). -/
inductive ReadTarget where
  | statusWord
  | commandWindow
  | unused (offset : Nat)
deriving DecidableEq, Repr

/-- The data of a host read of `length` bytes outside the response window (R161): the status word, most significant byte
first, and zeros from the command window and from any other offset. Such a read changes nothing and has no row of the
table (log entry 24). -/
def hostReadData (target : ReadTarget) (length : Nat) (s : State) : List Byte :=
  match target with
  | .statusWord => readBytes length (natBytes 4 (statusWord s).toNat)
  | .commandWindow => readBytes length []
  | .unused _ => readBytes length []

/-- IGNORED_WRITE (R161): it changes no state. -/
def execIgnoredWrite (_target : IgnoredTarget) (s : State) : Host.Outcome State Fault Refusal := .next s

/-- COMMAND_TAKE (R164, R165). -/
def execCommandTake (s : State) : Host.Outcome State Fault Refusal := .next (runEngine s)

/-- VECTOR_MESSAGE_SEND (R176): the port sends the vector messages it has been given first in, first out, and holds any
number of them (log entry 13). -/
def execVectorMessageSend (s : State) : Host.Outcome State Fault Refusal :=
  match s.nfu.vectors with
  | [] => .next s
  | v :: vs => .next (modOut (fun o => { o with vectorSent := some v }) (modNfu (fun n => { n with vectors := vs }) s))

end Sys2Proof.Machine
end

