-- ==== Sys2Proof/Machine/HostReads.lean ====
section
/-!
DEFINITION. The meanings of the commands that the command engine, the resolve unit, the walker, the evidence unit and
the notification unit perform at their taking: their checks and effects are in Machine/ReadCommands.lean.
-/

namespace Sys2Proof.Machine

open Sys2Proof

/-- IDENTIFY (R170). -/
def execIdentify (tag : Half) (s : State) :
    Host.Outcome State Fault Refusal :=
  .next (readStep tag .identify s)

/-- ADJ_READ (R2, R171). -/
def execAdjRead (tag adj : Half) (s : State) :
    Host.Outcome State Fault Refusal :=
  .next (readStep tag (.adjRead adj) s)

/-- GROUP_READ (R2, R171). -/
def execGroupRead (tag group : Half) (s : State) :
    Host.Outcome State Fault Refusal :=
  .next (readStep tag (.groupRead group) s)

/-- DEPLETED_LIST (R172). -/
def execDepletedList (tag start : Half) (s : State) :
    Host.Outcome State Fault Refusal :=
  .next (readStep tag (.depletedList start) s)

/-- RESOLVE_TEST (R63, R64). -/
def execResolveTest (tag group hash : Half) (s : State) :
    Host.Outcome State Fault Refusal :=
  .next (readStep tag (.resolveTest group hash) s)

/-- EVIDENCE_WRITE (R107). -/
def execEvidenceWrite (tag : Half) (target index : Byte) (assertFilter clearFilter guardTime : Half) (s : State) :
    Host.Outcome State Fault Refusal :=
  .next (readStep tag (.evidenceWrite target index assertFilter clearFilter guardTime) s)

/-- EVIDENCE_READ (R108). -/
def execEvidenceRead (tag : Half) (target index clear : Byte) (s : State) :
    Host.Outcome State Fault Refusal :=
  .next (readStep tag (.evidenceRead target index clear) s)

/-- JOB_STATUS (R148). -/
def execJobStatus (tag : Half) (s : State) :
    Host.Outcome State Fault Refusal :=
  .next (readStep tag .jobStatus s)

/-- AUDIT_SET (R144). -/
def execAuditSet (tag interval : Half) (s : State) :
    Host.Outcome State Fault Refusal :=
  .next (readStep tag (.auditSet interval) s)

/-- COUNTERS_READ (R173). -/
def execCountersRead (tag : Half) (clear : Byte) (s : State) :
    Host.Outcome State Fault Refusal :=
  .next (readStep tag (.countersRead clear) s)

/-- EVENT_CONFIG (R178). -/
def execEventConfig (tag : Half) (first last mask cls discard : Byte) (s : State) :
    Host.Outcome State Fault Refusal :=
  .next (readStep tag (.eventConfig first last mask cls discard) s)

/-- EVENT_FETCH (R177). -/
def execEventFetch (tag : Half) (cls : Byte) (s : State) :
    Host.Outcome State Fault Refusal :=
  .next (readStep tag (.eventFetch cls) s)

end Sys2Proof.Machine
end

