-- ==== Sys2Proof/Machine/HostTables.lean ====
section
/-!
DEFINITION. The meanings of the table commands: their checks and effects are in Machine/TableCommands.lean, their passage
through engine and table writer in `tableStep` (log entry 4).
-/

namespace Sys2Proof.Machine

open Sys2Proof

/-- ADJ_WRITE (R4 to R6). -/
def execAdjWrite (tag adj : Half) (port : Byte) (rewrite : Half) (uplink : Byte) (s : State) :
    Host.Outcome State Fault Refusal :=
  .next (tableStep tag (.adjWrite adj port rewrite uplink) s)

/-- ADJ_DELETE (R7). -/
def execAdjDelete (tag adj : Half) (s : State) :
    Host.Outcome State Fault Refusal :=
  .next (tableStep tag (.adjDelete adj) s)

/-- GROUP_WRITE (R17 to R20). -/
def execGroupWrite (tag : Half) (args : GroupArgs) (s : State) :
    Host.Outcome State Fault Refusal :=
  .next (tableStep tag (.groupWrite args) s)

/-- GROUP_DELETE (R21). -/
def execGroupDelete (tag group : Half) (s : State) :
    Host.Outcome State Fault Refusal :=
  .next (tableStep tag (.groupDelete group) s)

/-- MEMBER_SET (R22). -/
def execMemberSet (tag group : Half) (index enabled : Byte) (s : State) :
    Host.Outcome State Fault Refusal :=
  .next (tableStep tag (.memberSet group index enabled) s)

end Sys2Proof.Machine
end

