-- ==== Sys2Proof/Machine/LinkRows.lean ====
section
/-!
DEFINITION. The meanings of the forwarding-side link's commands (R46, R48, R98, R116, R180 to R185). A command that the
link's state does not admit changes nothing (log entry 17).
-/

namespace Sys2Proof.Machine

open Sys2Proof

/-! ### Link states (R180, R181) -/

/-- RECEIVE_SIGNAL_PRESENT: DOWN to TRAINING (R180). -/
def execReceiveSignalPresent (s : State) : Host.Outcome State Fault Refusal :=
  .next (if s.fsl.link = .down then event (setLink .training) s else s)

/-- SYMBOL_LOCK: in TRAINING this end begins to send its ready sequence (R180). -/
def execSymbolLock (s : State) : Host.Outcome State Fault Refusal :=
  .next (if s.fsl.link = .training then modFsl (fun f => { f with symbolLock := true, sendingReady := true }) s else s)

/-- The credits of the grant (R181). -/
def grantSize : Nat := 64

/-- Step 1 of entry to ACTIVE: the consecutive-bad count and the credit grant; the answer queue counts as served last
(R181, R185). This end's ready sequence ends here by the model's choice (log entry 21). -/
def openLink (s : State) : State :=
  giveMessage (.credit grantSize) (modFsl (fun f => { f with
    link := .active, sendingReady := false, consecutiveBad := 0, credits := 0, lastServed := .answers }) s)

/-- Entry to ACTIVE (R181, R106, R115). What the monitors do at the change of their port's entry, and what their records
read as, is taken first, while the link gives nothing: a message that falls there is neither sent nor kept (R101, R115).
Then the grant, the fault signal of each port still held and the probes join the transmit list in the order of R181, so
that no release is given (R106; log entry 35). -/
def enterActive (s : State) : State :=
  raise rankLink (activateProbes (activateSignals (openLink (activateReads (activatePorts s)))))

/-- TRAINING_COMPLETE: TRAINING to ACTIVE while symbol lock is held (R180, R181). -/
def execTrainingComplete (s : State) : Host.Outcome State Fault Refusal :=
  .next (if s.fsl.link = .training ∧ s.fsl.symbolLock = true then event enterActive s else s)

/-- LOSS_OF_LOCK: TRAINING or ACTIVE to DOWN (R180, R182). -/
def execLossOfLock (s : State) : Host.Outcome State Fault Refusal :=
  .next (if s.fsl.link = .down then s else event linkDown s)

/-! ### Inbound messages (R183, R184) -/

/-- A request taken against a credit (R46, R183, R184). -/
def admitRequest (tag : Byte) (g hash : Nat) (s : State) : State := takeRequest tag g hash (spendCredit (goodMessage s))

/-- RESOLVE_REQ (R46, R184). -/
def execResolveReq (tag : Byte) (group hash : Half) (s : State) : Host.Outcome State Fault Refusal :=
  .next
    (if s.fsl.link = .active then
      if s.fsl.credits = 0 then requestOverrun s else event (admitRequest tag group.toNat hash.toNat) s
    else s)

/-- The consecutive bad messages that take the link down (R183). -/
def badLimit : Nat := 8

/-- A bad message is discarded and counted; one under the request marker returns its credit (R183, R184). -/
def discardMessage (m : Marker) (s : State) : State :=
  let s1 := modFsl (fun f => { f with discards := sat32 (f.discards + 1), consecutiveBad := f.consecutiveBad + 1 }) s
  match m with
  | .request => giveMessage (.credit 1) (spendCredit s1)
  | .general => s1

/-- The effects of a bad message: the eighth in succession takes the link to DOWN (R183). -/
def badMessage (m : Marker) (s : State) : State :=
  let s1 := discardMessage m s
  if badLimit ≤ s1.fsl.consecutiveBad then linkDown s1 else s1

/-- BAD_MESSAGE (R183, R184). The bytes are those of a message that fails its check (`wellFormed`); nothing of them is
kept. -/
def execBadMessage (marker : Marker) (_frame : List Byte) (s : State) : Host.Outcome State Fault Refusal :=
  .next
    (if s.fsl.link = .active then
      if marker = .request ∧ s.fsl.credits = 0 then requestOverrun s else event (badMessage marker) s
    else s)

/-- PORT_NOTICE (R98, R99). -/
def execPortNotice (port kind : Byte) (s : State) : Host.Outcome State Fault Refusal :=
  .next (if s.fsl.link = .active then event (fun s => portNotice port.toNat kind.toNat (goodMessage s)) s else s)

/-- PROBE_ARRIVAL (R116 to R119). -/
def execProbeArrival (port : Byte) (peerState : BitVec 2) (mine yours txInterval : Half) (s : State) :
    Host.Outcome State Fault Refusal :=
  .next
    (if s.fsl.link = .active then
      event (fun s => probeArrival { port := port.toNat, peerState := peerState.toNat, mine := mine, yours := yours,
                                     txInterval := txInterval.toNat } (goodMessage s)) s
    else s)

/-! ### The transmitter (R48, R185) -/

/-- RESOLVE_ANS: the transmitter sends the head answer, which returns one credit, when it is the answer queue's turn
(R48, R184, R185). -/
def execResolveAns (s : State) : Host.Outcome State Fault Refusal :=
  match s.rsu.answers with
  | [] => .next s
  | a :: rest =>
    if s.fsl.link = .active ∧ (s.fsl.transmit = [] ∨ s.fsl.lastServed ≠ .answers) then
      .next (modOut (fun o => { o with linkSent := some (answerFrame a) })
        (modRsu (fun r => { r with answers := rest })
          (modFsl (fun f => { f with lastServed := .answers }) (returnCredits 1 s))))
    else .next s

/-- The credits a message of the transmit list carries (R184). -/
def creditsOf : TxMsg → Nat
  | .credit c => c
  | .probeSend _ => 0
  | .faultSignal _ _ => 0

/-- TRANSMIT_LIST_SEND: the transmitter sends the head of the transmit list when it is its turn (R184, R185). -/
def execTransmitListSend (s : State) : Host.Outcome State Fault Refusal :=
  match s.fsl.transmit with
  | [] => .next s
  | m :: rest =>
    if s.fsl.link = .active ∧ (s.rsu.answers = [] ∨ s.fsl.lastServed ≠ .list) then
      .next (modOut (fun o => { o with linkSent := some (messageFrame m) })
        (modFsl (fun f => { f with transmit := rest, lastServed := .list }) (returnCredits (creditsOf m) s)))
    else .next s

end Sys2Proof.Machine
end

