-- ==== Sys2Proof/Machine/TimerRows.lean ====
section
/-!
DEFINITION. The meanings of the loss-of-light lines' commands and of the timer expiries. An expiry takes the time base
to the timer's expiry instant (log entry 3); the expiry of a timer that does not run changes nothing (log entry 17).
-/

namespace Sys2Proof.Machine

open Sys2Proof

/-- LOS_RAW_CHANGE (R93). -/
def execLosRawChange (line : Fin 16) (asserted : Bool) (s : State) : Host.Outcome State Fault Refusal :=
  .next (event (rawChange line.val asserted) s)

/-- LOS_FILTER_TIMER_EXPIRY (R93). -/
def execLosFilterTimerExpiry (line : Fin 16) (s : State) : Host.Outcome State Fault Refusal :=
  .next (event (filterExpiry line.val) s)

/-- QUALIFY_TIMER_EXPIRY (R74, R75). -/
def execQualifyTimerExpiry (monitor : Fin 32) (s : State) : Host.Outcome State Fault Refusal :=
  .next (event (qualifyExpiry monitor.val) s)

/-- HOLD_DOWN_EXPIRY (R79). -/
def execHoldDownExpiry (monitor : Fin 32) (s : State) : Host.Outcome State Fault Refusal :=
  .next (event (holdExpiry monitor.val) s)

/-- ARRIVAL_TIMER_EXPIRY (R121). -/
def execArrivalTimerExpiry (monitor : Fin 32) (s : State) : Host.Outcome State Fault Refusal :=
  .next (event (arrivalExpiry monitor.val) s)

/-- SEND_TIMER_EXPIRY (R113). -/
def execSendTimerExpiry (monitor : Fin 32) (s : State) : Host.Outcome State Fault Refusal :=
  .next (event (sendExpiry monitor.val) s)

/-- DECAY_TIMER_EXPIRY (R126). -/
def execDecayTimerExpiry (monitor : Fin 32) (s : State) : Host.Outcome State Fault Refusal :=
  .next (event (decayExpiry monitor.val) s)

/-- GUARD_TIMER_EXPIRY (R102, R104). -/
def execGuardTimerExpiry (port : Fin 128) (s : State) : Host.Outcome State Fault Refusal :=
  .next (event (guardExpiry port.val) s)

/-- The audit timer expires: a pass begins (R142). -/
def auditTimerExpiry (s : State) : State :=
  match s.rwk.audit with
  | .waiting e => modRwk (fun w => { w with audit := .pass, auditCursor := none }) (reach e s)
  | .off => s
  | .pass => s

/-- AUDIT_TIMER_EXPIRY (R142). -/
def execAuditTimerExpiry (s : State) : Host.Outcome State Fault Refusal := .next (event auditTimerExpiry s)

end Sys2Proof.Machine
end

