-- ==== Sys2Proof/Machine/WalkerRows.lean ====
section
/-!
DEFINITION. The meanings of the walker's steps (R133, R134, R139 to R143, R155). A step is performed when the table
writer has started it; a step that is not in flight, waits or is another work's changes nothing (log entry 17).
-/

namespace Sys2Proof.Machine

open Sys2Proof

/-- The table writer is performing the walker's step (R145). -/
def stepStarted (s : State) : Bool := s.rwk.inFlight && decide (s.twr.performing = some .walker)

/-- A handle lies above a cursor; before first is below every handle (R133). -/
def aboveCursor (c : Option Nat) (g : Nat) : Bool :=
  match c with
  | none => true
  | some k => decide (k < g)

/-- The first INSTALLED group of the table above a cursor (R139, R143). -/
def nextInstalled (s : State) (c : Option Nat) : Option Nat :=
  (s.groups.find? (fun e => decide (e.2.status = .installed) && aboveCursor c e.1)).map (·.1)

/-! ### JOB_STEP (R133, R134) -/

/-- What the finding of a job step gives: a handle, end of list, or an entry that reads uncorrectable. -/
inductive Finding where
  | group (g : Nat)
  | endOfList
  | unreadable
deriving DecidableEq, Repr

/-- The finding of a job step (R133 part 1, R139). In list mode it reads the list's entries from the head to the one it
finds, or all of them at end of list, and ends at the first that reads uncorrectable; in full-table mode it reads none
(log entry 14). -/
def findGroup (u : Nat) (c : Option Nat) (s : State) : Finding × State :=
  if s.rck.dependencyPending then
    match nextInstalled s c with
    | some g => (.group g, s)
    | none => (.endOfList, s)
  else
    let l := s.depList u
    let below := l.takeWhile (fun g => !aboveCursor c g)
    match l.find? (aboveCursor c) with
    | some g =>
      match readEntries u (below ++ [g]) s with
      | (true, s1) => (.group g, s1)
      | (false, s1) => (.unreadable, s1)
    | none =>
      match readEntries u l s with
      | (true, s1) => (.endOfList, s1)
      | (false, s1) => (.unreadable, s1)

/-- A job completes (R134). -/
def completeJob (u : Nat) (s : State) : State :=
  raise (rankJobDone u) (modMon u (fun m => { m with converged := true }) (setJob u none s))

/-- What the walker does with a job step's result at its completion (the table of R133, R139). -/
def jobResult (u : Nat) (f : Finding) (s : State) : State :=
  match s.job u with
  | none => s
  | some j =>
    if j.restart then setJob u (some { j with cursor := none, restart := false }) s
    else
      match f with
      | .group g => setJob u (some { j with cursor := some g }) s
      | .endOfList => completeJob u s
      | .unreadable => setJob u (some { j with cursor := none }) s

/-- A job step for uplink `u` (R133). -/
def jobStep (u : Nat) (s : State) : State :=
  match findGroup u ((s.job u).bind (·.cursor)) s with
  | (.group g, s1) => jobResult u (.group g) (settleStep false g s1)
  | (f, s1) => jobResult u f s1

/-- JOB_STEP (R133). -/
def execJobStep (s : State) : Host.Outcome State Fault Refusal :=
  match s.rwk.work with
  | .job u => .next (if stepStarted s then event (fun s => completeStep (jobStep u s)) s else s)
  | .idle => .next s
  | .dependencyRebuild => .next s
  | .rebuild => .next s
  | .audit => .next s

/-! ### DEPENDENCY_REBUILD (R140, R155) -/

/-- Reads member `i` of group `g` for the rebuild: its record, or only its link field in a DAMAGED group, then its
adjacency unless the link field is lost (R155). -/
def readForRebuild (g i : Nat) (s : State) : State :=
  let s1 :=
    if (s.group g).status = .installed then readMember false g i s else (readField (.memberLink g i) s).2
  if DupField.memberLink g i ∈ s1.rck.lost then s1
  else
    match (s1.group g).members[i]? with
    | some m => (readAdjUplink m.adj s1).2
    | none => s1

/-- Reads one group for the rebuild: the header of an INSTALLED one, its four duplicated fields among it, and no header
field of a DAMAGED one (log entry 14); then its members (R155). -/
def readGroupForRebuild (g : Nat) (s : State) : State :=
  let s1 := if (s.group g).status = .installed then readHeader false g s else s
  forEach (List.range (s1.group g).members.length) (readForRebuild g) s1

/-- A member is counted towards uplink `u` (the table of R155). -/
def countedTowards (s : State) (u g : Nat) (m : Member) (i : Nat) : Bool :=
  decide (DupField.memberLink g i ∉ s.rck.lost) && decide ((s.adj m.adj).status = .valid)
    && decide ((s.adj m.adj).uplink = some u)

/-- Uplink `u`'s new list (R155). -/
def rebuiltList (s : State) (u : Nat) : List Nat :=
  (s.groups.filter (fun e => referencing e.2
    && (e.2.members.mapIdx (fun i m => countedTowards s u e.1 m i)).any id)).map (·.1)

/-- The 32 lists in their canonical form. -/
def rebuiltLists (s : State) : Table (List Nat) :=
  (allUplinks.map (fun u => (u, rebuiltList s u))).filter (fun e => decide (e.2 ≠ []))

/-- The units of every dependency entry. -/
def anyEntry : RecUnit → Bool
  | .entry _ _ => true
  | _ => false

/-- The dependency rebuild once its reads are made (R155). -/
def rebuildIndex (s : State) : State :=
  let ls := rebuiltLists s
  let total := (ls.map (fun e => e.2.length)).sum
  if Config.poolSize < total then raise rankIntegrity (modRck (fun r => { r with tableFault := true }) s)
  else
    modRck (fun r => { r with dependencyPending := false })
      (writeUnits anyEntry (modDpx (fun _ => { lists := ls, free := Config.poolSize - total }) s))

/-- The dependency rebuild step (R155). -/
def dependencyRebuildStep (s : State) : State :=
  rebuildIndex (forEach ((s.groups.filter (fun e => referencing e.2)).map (·.1)) readGroupForRebuild s)

/-- DEPENDENCY_REBUILD (R140, R155). -/
def execDependencyRebuild (s : State) : Host.Outcome State Fault Refusal :=
  .next
    (if s.rwk.work = .dependencyRebuild ∧ stepStarted s = true then
      event (fun s => completeStep (dependencyRebuildStep s)) s
    else s)

/-! ### REBUILD_STEP (R141) -/

/-- Group `g`'s bucket units. -/
def bucketUnits (g : Nat) : RecUnit → Bool
  | .bucket g' _ => decide (g' = g)
  | _ => false

/-- The rebuild of an INSTALLED group whose records were read (R141, first row). -/
def rebuildGroup (g : Nat) (s : State) : State :=
  match settleRecord false g (writeUnits (bucketUnits g) (modGroup g deal s)) with
  | (_, s1) => leaveRebuild g (publish g s1)

/-- A rebuild step (R141). -/
def rebuildStep (s : State) : State :=
  match s.rck.rebuildList with
  | [] => s
  | g :: _ =>
    let s1 := (readField (.groupStatus g) s).2
    if (s1.group g).status = .installed then
      let s2 := readMembers false g (readHeader false g s1)
      if (s2.group g).status = .installed then rebuildGroup g s2 else leaveRebuild g s2
    else leaveRebuild g s1

/-- REBUILD_STEP (R141). -/
def execRebuildStep (s : State) : Host.Outcome State Fault Refusal :=
  .next
    (if s.rwk.work = .rebuild ∧ stepStarted s = true then event (fun s => completeStep (rebuildStep s)) s else s)

/-! ### AUDIT_STEP (R142, R143) -/

/-- An audit pass ends (R142). -/
def endPass (s : State) : State :=
  raise rankAuditPass (modRwk (fun w => { w with
    audit := match w.auditInterval with
      | some t => .waiting (auditExpiry s.now t)
      | none => .off
    auditCursor := none }) s)

/-- An audit step (R143): the cursor goes to the settled group at the step's completion. A pass that has been turned
off meanwhile does not end again (R144; log entry 31). -/
def auditStep (s : State) : State :=
  match nextInstalled s s.rwk.auditCursor with
  | some g => modRwk (fun w => { w with auditCursor := some g }) (settleStep true g s)
  | none => if s.rwk.audit = .pass then endPass s else s

/-- AUDIT_STEP (R143). -/
def execAuditStep (s : State) : Host.Outcome State Fault Refusal :=
  .next
    (if s.rwk.work = .audit ∧ stepStarted s = true then event (fun s => completeStep (auditStep s)) s else s)

end Sys2Proof.Machine
end

