-- ==== Sys2Proof/Machine/Dispatch.lean ====
section
/-!
DEFINITION. One arm for each row of spec/opcode_table.json.
-/

namespace Sys2Proof.Machine

open Sys2Proof

def exec (i : Instr) (s : State) : Host.Outcome State Fault Refusal :=
  match i with
  | .deviceReset levels => Sys2Proof.Machine.execDeviceReset levels s
  | .rppReset => Sys2Proof.Machine.execRppReset s
  | .commandWindowWrite bytes => Sys2Proof.Machine.execCommandWindowWrite bytes s
  | .responseWindowRead length => Sys2Proof.Machine.execResponseWindowRead length s
  | .ignoredWrite target => Sys2Proof.Machine.execIgnoredWrite target s
  | .commandTake => Sys2Proof.Machine.execCommandTake s
  | .identify tag => Sys2Proof.Machine.execIdentify tag s
  | .adjWrite tag adj port rewrite uplink => Sys2Proof.Machine.execAdjWrite tag adj port rewrite uplink s
  | .adjDelete tag adj => Sys2Proof.Machine.execAdjDelete tag adj s
  | .adjRead tag adj => Sys2Proof.Machine.execAdjRead tag adj s
  | .groupWrite tag args => Sys2Proof.Machine.execGroupWrite tag args s
  | .groupDelete tag group => Sys2Proof.Machine.execGroupDelete tag group s
  | .groupRead tag group => Sys2Proof.Machine.execGroupRead tag group s
  | .memberSet tag group index enabled => Sys2Proof.Machine.execMemberSet tag group index enabled s
  | .depletedList tag start => Sys2Proof.Machine.execDepletedList tag start s
  | .resolveTest tag group hash => Sys2Proof.Machine.execResolveTest tag group hash s
  | .monitorWrite tag args => Sys2Proof.Machine.execMonitorWrite tag args s
  | .monitorRead tag monitor clear => Sys2Proof.Machine.execMonitorRead tag monitor clear s
  | .enable tag monitor => Sys2Proof.Machine.execEnable tag monitor s
  | .disable tag monitor => Sys2Proof.Machine.execDisable tag monitor s
  | .forceDown tag monitor => Sys2Proof.Machine.execForceDown tag monitor s
  | .release tag monitor => Sys2Proof.Machine.execRelease tag monitor s
  | .clearLatch tag monitor => Sys2Proof.Machine.execClearLatch tag monitor s
  | .evidenceWrite tag target index assertFilter clearFilter guardTime => Sys2Proof.Machine.execEvidenceWrite tag target index assertFilter clearFilter guardTime s
  | .evidenceRead tag target index clear => Sys2Proof.Machine.execEvidenceRead tag target index clear s
  | .jobStatus tag => Sys2Proof.Machine.execJobStatus tag s
  | .auditSet tag interval => Sys2Proof.Machine.execAuditSet tag interval s
  | .countersRead tag clear => Sys2Proof.Machine.execCountersRead tag clear s
  | .eventConfig tag first last mask cls discard => Sys2Proof.Machine.execEventConfig tag first last mask cls discard s
  | .eventFetch tag cls => Sys2Proof.Machine.execEventFetch tag cls s
  | .receiveSignalPresent => Sys2Proof.Machine.execReceiveSignalPresent s
  | .trainingComplete => Sys2Proof.Machine.execTrainingComplete s
  | .lossOfLock => Sys2Proof.Machine.execLossOfLock s
  | .resolveReq tag group hash => Sys2Proof.Machine.execResolveReq tag group hash s
  | .badMessage marker frame => Sys2Proof.Machine.execBadMessage marker frame s
  | .portNotice port kind => Sys2Proof.Machine.execPortNotice port kind s
  | .probeArrival port peerState mine yours txInterval => Sys2Proof.Machine.execProbeArrival port peerState mine yours txInterval s
  | .resolveAns => Sys2Proof.Machine.execResolveAns s
  | .transmitListSend => Sys2Proof.Machine.execTransmitListSend s
  | .losRawChange line asserted => Sys2Proof.Machine.execLosRawChange line asserted s
  | .losFilterTimerExpiry line => Sys2Proof.Machine.execLosFilterTimerExpiry line s
  | .qualifyTimerExpiry monitor => Sys2Proof.Machine.execQualifyTimerExpiry monitor s
  | .holdDownExpiry monitor => Sys2Proof.Machine.execHoldDownExpiry monitor s
  | .arrivalTimerExpiry monitor => Sys2Proof.Machine.execArrivalTimerExpiry monitor s
  | .sendTimerExpiry monitor => Sys2Proof.Machine.execSendTimerExpiry monitor s
  | .decayTimerExpiry monitor => Sys2Proof.Machine.execDecayTimerExpiry monitor s
  | .guardTimerExpiry port => Sys2Proof.Machine.execGuardTimerExpiry port s
  | .auditTimerExpiry => Sys2Proof.Machine.execAuditTimerExpiry s
  | .jobStep => Sys2Proof.Machine.execJobStep s
  | .dependencyRebuild => Sys2Proof.Machine.execDependencyRebuild s
  | .rebuildStep => Sys2Proof.Machine.execRebuildStep s
  | .auditStep => Sys2Proof.Machine.execAuditStep s
  | .symbolLock => Sys2Proof.Machine.execSymbolLock s
  | .vectorMessageSend => Sys2Proof.Machine.execVectorMessageSend s

end Sys2Proof.Machine
end

