-- ==== Sys2Proof/WellFormed.lean ====
section
/-!
DEFINITION. Commands that can arrive: the checks a command of the table must pass beside its types. A field that the
part itself checks is not checked here.
-/

namespace Sys2Proof

open Sys2Proof.Machine

/-- An offset outside the three windows of R188: the status word's 4 bytes at 0x000, and 256 bytes each for the command
window at 0x100 and the response window at 0x200 (log entry 24). -/
def unusedOffset (o : Nat) : Bool := (decide (4 ≤ o) && decide (o < 0x100)) || decide (0x300 ≤ o)

/-- A GROUP_WRITE record holds at most 59 member entries (R188). -/
def maxRecordMembers : Nat := 59

/-- The command can arrive: an ignored write names an offset outside the windows, a GROUP_WRITE fits its record, the
bytes of a bad message fail their check. -/
def wellFormed (i : Instr) : Bool :=
  match i with
  | .deviceReset _ => true
  | .rppReset => true
  | .commandWindowWrite _ => true
  | .responseWindowRead _ => true
  | .ignoredWrite t =>
    match t with
    | .statusWord => true
    | .responseWindow => true
    | .unused o => unusedOffset o
  | .commandTake => true
  | .identify _ => true
  | .adjWrite _ _ _ _ _ => true
  | .adjDelete _ _ => true
  | .adjRead _ _ => true
  | .groupWrite _ a => decide (a.members.length ≤ maxRecordMembers)
  | .groupDelete _ _ => true
  | .groupRead _ _ => true
  | .memberSet _ _ _ _ => true
  | .depletedList _ _ => true
  | .resolveTest _ _ _ => true
  | .monitorWrite _ _ => true
  | .monitorRead _ _ _ => true
  | .enable _ _ => true
  | .disable _ _ => true
  | .forceDown _ _ => true
  | .release _ _ => true
  | .clearLatch _ _ => true
  | .evidenceWrite _ _ _ _ _ _ => true
  | .evidenceRead _ _ _ _ => true
  | .jobStatus _ => true
  | .auditSet _ _ => true
  | .countersRead _ _ => true
  | .eventConfig _ _ _ _ _ _ => true
  | .eventFetch _ _ => true
  | .receiveSignalPresent => true
  | .trainingComplete => true
  | .lossOfLock => true
  | .resolveReq _ _ _ => true
  | .badMessage m frame => !goodFrame m frame
  | .portNotice _ _ => true
  | .probeArrival _ _ _ _ _ => true
  | .resolveAns => true
  | .transmitListSend => true
  | .losRawChange _ _ => true
  | .losFilterTimerExpiry _ => true
  | .qualifyTimerExpiry _ => true
  | .holdDownExpiry _ => true
  | .arrivalTimerExpiry _ => true
  | .sendTimerExpiry _ => true
  | .decayTimerExpiry _ => true
  | .guardTimerExpiry _ => true
  | .auditTimerExpiry => true
  | .jobStep => true
  | .dependencyRebuild => true
  | .rebuildStep => true
  | .auditStep => true
  | .symbolLock => true
  | .vectorMessageSend => true

end Sys2Proof
end

