-- ==== Sys2Proof/Safety.lean ====
section
/-!
DEFINITION. The terms in which claims about the part are stated: conditions under which a command runs to its end, what
a command may change beside its own effect, the invariants of a run, and the answer the resolve rules give.
-/

namespace Sys2Proof.Machine

open Sys2Proof

/-! ### Conditions of a command's performance -/

/-- Every unit of storage reads clean and no duplicated field is lost (R149, R157). -/
abbrev Clean (s : State) : Prop := s.rck.damage = [] ∧ s.rck.lost = []

/-- The command engine takes a command at its arrival: IDLE, nothing queued, room for a response, and no response to be
discarded (R164, R168). -/
abbrev EngineFree (s : State) : Prop :=
  s.cme.executing = none ∧ s.cme.queue = [] ∧ s.cme.responses.length < Config.queueDepth ∧ s.cme.discard = false

/-- The table writer is free and the walker has no step in flight (R145). -/
abbrev WriterFree (s : State) : Prop := s.twr.performing = none ∧ s.rwk.inFlight = false

/-- An IDLE walker has found no work (R136). -/
abbrev WalkerServed (s : State) : Prop := s.rwk.work = .idle → s.rwk.inFlight = false → chooseWork s = none

/-! ### Events raised (R174 to R176) -/

/-- The vector messages that the changes of the class counts from `s` to `t` call for: one for each class whose count
goes from 0 to at least 1, in ascending class order, with the lowest rank counted in it. -/
def newVectors (s t : State) : List VectorMsg :=
  [0, 1, 2, 3].filterMap (fun v =>
    if classCount s v = 0 then (countedRanks t v).head?.map (fun r => { cls := v, lowest := r }) else none)

/-- From `s` to `t` the sources of `rs` were raised and no other, at one instant. -/
def Raised (rs : List Nat) (s t : State) : Prop :=
  (∀ k, t.source k = if k ∈ rs then { s.source k with pending := true } else s.source k)
    ∧ t.nfu.vectors = s.nfu.vectors ++ newVectors s t

/-! ### Responses (R166) -/

/-- A response without a warning. -/
def answering (tag : Half) (code : Byte) (st : Status) (r : Result) : Response :=
  { tag := tag, code := code, status := st, clamped := false, stillAsserted := false, result := r }

/-- A refusal: its status, no warning, result fields all 0 (R165). -/
def refusing (tag : Half) (code : Byte) (st : Status) : Response := answering tag code st .refused

/-- From `u` to `t` the response `r` was placed at the tail of the response queue, RESPONSE raised when the queue was
empty, and nothing else changed. -/
structure Responded (r : Response) (u t : State) : Prop where
  rest : t = { u with cme := t.cme, nfu := t.nfu }
  queued : t.cme = { u.cme with responses := u.cme.responses ++ [r] }
  raised : Raised (if u.cme.responses = [] then [rankResponse] else []) u t

/-- The command answers `r` and changes nothing else. -/
def Answers (i : Instr) (r : Response) (s : State) : Prop := ∃ t, exec i s = .next t ∧ Responded r s t

/-- The command changes the part as `P` says and then answers `r`. -/
def Performs (i : Instr) (P : State → Prop) (r : State → Response) (s : State) : Prop :=
  ∃ u t, exec i s = .next t ∧ P u ∧ Responded (r u) u t

/-- The row of each host command. -/
def rowOf (tag : Half) (c : HostCmd) : Instr :=
  match c with
  | .identify => .identify tag
  | .adjWrite a p r u => .adjWrite tag a p r u
  | .adjDelete a => .adjDelete tag a
  | .adjRead a => .adjRead tag a
  | .groupWrite a => .groupWrite tag a
  | .groupDelete g => .groupDelete tag g
  | .groupRead g => .groupRead tag g
  | .memberSet g i e => .memberSet tag g i e
  | .depletedList g => .depletedList tag g
  | .resolveTest g h => .resolveTest tag g h
  | .monitorWrite a => .monitorWrite tag a
  | .monitorRead m c => .monitorRead tag m c
  | .enable m => .enable tag m
  | .disable m => .disable tag m
  | .forceDown m => .forceDown tag m
  | .release m => .release tag m
  | .clearLatch m => .clearLatch tag m
  | .evidenceWrite t i a c g => .evidenceWrite tag t i a c g
  | .evidenceRead t i c => .evidenceRead tag t i c
  | .jobStatus => .jobStatus tag
  | .auditSet i => .auditSet tag i
  | .countersRead c => .countersRead tag c
  | .eventConfig f l m c d => .eventConfig tag f l m c d
  | .eventFetch c => .eventFetch tag c

/-! ### The answer the resolve rules give (R49 to R57, R61, R63), every record reading clean -/

/-- The bucket step in group `x` (R32, R52): the answering member and whether the substitute rule chose it; `none` when
`x` has no live member. -/
def supply (s : State) (x hash : Nat) : Option (Nat × Bool) :=
  let b := (hash + (s.group x).offset) % (s.group x).bucketCount.size
  let live := liveList s (s.group x).members
  match (s.group x).buckets[b]? with
  | some k => if k.current ∈ live then some (k.current, false) else live[b % live.length]?.map (fun i => (i, true))
  | none => live[b % live.length]?.map (fun i => (i, true))

/-- The FORWARD answer to a request for `g` from member `i` of group `x`, with the supplying group, member index and
adjacency (R55 to R57, R63). -/
def forwarded (s : State) (g x i : Nat) (sub bak : Bool) : Verdicted × Option (Nat × Nat × Nat) :=
  let a := (((s.group x).members[i]?).map (·.adj)).getD 0
  ({ group := g, verdict := .forward, reason := .none, port := (s.adj a).port, rewrite := (s.adj a).rewrite,
     substitute := sub, backup := bak, revision := (s.group x).revision }, some (x, i, a))

/-- An answer that names no member (R55). -/
def unforwarded (g : Nat) (v : Verdict) (r : AnsReason) (revision : Nat) : Verdicted × Option (Nat × Nat × Nat) :=
  ({ group := g, verdict := v, reason := r, port := 0, rewrite := 0, substitute := false, backup := false,
     revision := revision }, none)

/-- What `g`'s backup supplies, if `g` names an INSTALLED backup with a live member (R51, R53). -/
def backupSupply (s : State) (g hash : Nat) : Option (Nat × Nat × Bool) :=
  match (s.group g).backup with
  | none => none
  | some b => if (s.group b).status = .installed then (supply s b hash).map (fun p => (b, p.1, p.2)) else none

/-- The outcomes of the derivation (the table that ends section 3.2). -/
def resolution (s : State) (g hash : Nat) : Verdicted × Option (Nat × Nat × Nat) :=
  if Config.groupCapacity ≤ g then unforwarded g .error .range 0
  else
    match (s.group g).status with
    | .notInstalled => unforwarded g .error .unknownGroup (s.group g).revision
    | .damaged =>
      match backupSupply s g hash with
      | some (b, i, sub) => forwarded s g b i sub true
      | none => unforwarded g .error .damaged (s.group g).revision
    | .installed =>
      match supply s g hash with
      | some (i, sub) => forwarded s g g i sub false
      | none =>
        match backupSupply s g hash with
        | some (b, i, sub) => forwarded s g b i sub true
        | none =>
          match (s.group g).policy with
          | .discard => unforwarded g .discard .noPath (s.group g).revision
          | .punt => unforwarded g .punt .noPath (s.group g).revision

/-- The bucket step in group `x` passes over a member on uplink `u` (R61). -/
def passesOver (s : State) (x hash u : Nat) : Bool :=
  let b := (hash + (s.group x).offset) % (s.group x).bucketCount.size
  match (s.group x).buckets[b]? with
  | none => false
  | some k =>
    match (s.group x).members[k.current]? with
    | none => false
    | some m => decide (k.current ∉ liveList s (s.group x).members) && decide ((s.adj m.adj).status = .valid)
        && decide ((s.adj m.adj).uplink = some u)

/-- The derivation for `g` consults the INSTALLED backup `b` (R51, R53). -/
def consults (s : State) (g hash b : Nat) : Bool :=
  decide ((s.group g).backup = some b) && decide ((s.group b).status = .installed)
    && (decide ((s.group g).status = .damaged)
      || (decide ((s.group g).status = .installed) && decide (supply s g hash = none)))

/-- A request for `g` passes over a member on uplink `u` (R61). -/
def requestPasses (s : State) (g hash u : Nat) : Bool :=
  decide (g < Config.groupCapacity)
    && ((decide ((s.group g).status = .installed) && passesOver s g hash u)
      || ((s.group g).backup.any (fun b => consults s g hash b && passesOver s b hash u)))

/-! ### Records taken (R163, R164) -/

/-- The rows at whose instant the engine may take records: a delivery, a removal of a response, a taking, and every host
command, which delivers its record where the engine is not free and is followed by further takings where it completes a
table command. -/
def takesRecords : Instr → Bool
  | .deviceReset _ => false
  | .rppReset => false
  | .ignoredWrite _ => false
  | .receiveSignalPresent => false
  | .symbolLock => false
  | .trainingComplete => false
  | .lossOfLock => false
  | .resolveReq _ _ _ => false
  | .badMessage _ _ => false
  | .portNotice _ _ => false
  | .probeArrival _ _ _ _ _ => false
  | .resolveAns => false
  | .transmitListSend => false
  | .vectorMessageSend => false
  | .losRawChange _ _ => false
  | .losFilterTimerExpiry _ => false
  | .qualifyTimerExpiry _ => false
  | .holdDownExpiry _ => false
  | .arrivalTimerExpiry _ => false
  | .sendTimerExpiry _ => false
  | .decayTimerExpiry _ => false
  | .guardTimerExpiry _ => false
  | .auditTimerExpiry => false
  | .jobStep => false
  | .dependencyRebuild => false
  | .rebuildStep => false
  | .auditStep => false
  | _ => true

/-- A record that the engine may take at command `i` in `s`: one that waits, or the one that a write delivers (R163). -/
def mayTake (i : Instr) (s : State) (r : List Byte) : Prop :=
  takesRecords i = true ∧ (r ∈ s.cme.queue ∨ ∃ bytes, i = .commandWindowWrite bytes ∧ r = bytes.take 256)

/-! ### Table commands (R1, R145, R164, R168) -/

/-- Command `c` under `tag` is performed at its step: it finds the engine and the table writer free, or it is the command
in execution, the table writer has started its operation and no record waits (R145, R164). -/
def TableStarted (tag : Half) (c : HostCmd) (s : State) : Prop :=
  (EngineFree s ∧ WriterFree s)
    ∨ (s.cme.executing = some { tag := tag, cmd := c } ∧ s.twr.performing = some .engine ∧ s.cme.queue = [])

/-- The engine after a table command's completion: IDLE, the response queued unless it is to be discarded (R166, R168). -/
def completed (r : Response) (c : Cme) : Cme :=
  { c with executing := none, discard := false, responses := if c.discard then c.responses else c.responses ++ [r] }

/-- What the placing of a table command's response raises (R166, R168). -/
def completionRaise (c : Cme) : List Nat := if c.discard = false ∧ c.responses = [] then [rankResponse] else []

/-- A table command was performed and answered `r`, raising the sources of `rs` before its response: the records, lists
and counts are the command's, the table writer goes on to a walker's step that waits, and nothing else changed. -/
structure TableAnswered (r : Response) (rs : List Nat) (s t : State) : Prop where
  rest : t = { s with groups := t.groups, adjs := t.adjs, dpx := t.dpx, twr := t.twr, rck := t.rck, cme := t.cme,
                      nfu := t.nfu }
  check : t.rck = { s.rck with rebuildList := t.rck.rebuildList }
  queued : t.cme = completed r s.cme
  writer : t.twr = { s.twr with
    performing := if s.rwk.inFlight then some .walker else none
    runCount := if s.cme.executing.isSome then s.twr.runCount else 0
    depleted := t.twr.depleted }
  raised : ∃ m, Raised rs s m ∧ Raised (completionRaise s.cme) m t

/-- The table command is refused: its response alone (R1, R165). -/
def TableRefused (i : Instr) (tag : Half) (code : Byte) (st : Status) (s : State) : Prop :=
  ∃ t, exec i s = .next t ∧ TableAnswered (refusing tag code st) [] s t
    ∧ t.groups = s.groups ∧ t.adjs = s.adjs ∧ t.dpx = s.dpx ∧ t.rck = s.rck ∧ t.twr.depleted = s.twr.depleted

/-- An uplink field names an uplink or none (R186). -/
def uplinkNamed (b : Byte) : Bool := decide (b.toNat < 32) || decide (b = 0xFF)

/-- The uplink an uplink field names. -/
def uplinkOf (b : Byte) : Option Nat := if b = 0xFF then none else some b.toNat

/-- The checks of GROUP_WRITE (R18) with every record reading clean: the status of the first that fails. -/
def groupWriteRefusal (s : State) (a : GroupArgs) : Option Status :=
  let g := a.group.toNat
  let adjs := a.members.map (fun m => m.adj.toNat)
  let b := a.backup.toNat
  let uplinks := (List.range 32).filter (fun u => adjs.any (fun x => decide ((s.adj x).uplink = some u)))
  let joined := uplinks.filter (fun u => decide (g ∉ s.depList u))
  let left := (List.range 32).filter (fun u => decide (g ∈ s.depList u) && decide (u ∉ uplinks))
  if 4096 ≤ g then some .range
  else if a.members.length = 0 ∨ 16 < a.members.length then some .range
  else if 3 ≤ a.bucketClass.toNat then some .range
  else if 3 ≤ a.stripe.toNat ∨ 2 ≤ a.policy.toNat then some .range
  else if adjs.any (fun x => decide (8192 ≤ x)) then some .range
  else
    match adjs.find? (fun x => decide ((s.adj x).status ≠ .valid)) with
    | some x => if (s.adj x).status = .invalid then some .notValid else some .damaged
    | none =>
      if ¬ adjs.Nodup then some .duplicateMember
      else if b ≠ 65535 ∧ 4096 ≤ b then some .range
      else if b ≠ 65535 ∧ (s.group b).status ≠ .installed then some .notInstalled
      else if b ≠ 65535 ∧ (b = g ∨ (s.group b).backup ≠ none ∨ (s.group g).referrers ≠ 0) then some .backupChain
      else if s.rck.dependencyPending then some .damaged
      else if s.dpx.free + left.length < joined.length then some .poolFull
      else none

/-! ### Findings of record check (chapter 8) -/

/-- Unit `u` alone does not read clean, and no field is lost. -/
abbrev OnlyDamaged (u : RecUnit) (d : Damage) (s : State) : Prop := s.rck.damage = [(u, d)] ∧ s.rck.lost = []

/-- Both copies of field `f` read uncorrectable, everything else reads clean, and no field has been found lost. -/
abbrev OnlyLost (f : DupField) (s : State) : Prop :=
  s.rck.damage = [(.copy f false, .uncorrectable), (.copy f true, .uncorrectable)] ∧ s.rck.lost = []

/-- The one damaged unit written back, counted for its kind (R150). -/
def corrected (k : RecKind) (s : State) : State :=
  { s with rck := { s.rck with damage := [], corrected := s.rck.corrected.bump k } }

/-- The groups that join the rebuild list when adjacency `a` becomes DAMAGED (R158). -/
def joinsFor (s : State) (a g : Nat) : Prop :=
  ∃ e ∈ s.groups, e.1 = g ∧ e.2.status = .installed ∧ ∃ m ∈ e.2.members, m.adj = a

/-- From `s` to `t` a finding degraded records: the groups of `joins` stand on the rebuild list, which may wake an IDLE
walker, and the sources of `rs` were raised. -/
structure Degraded (joins : Nat → Prop) (rs : List Nat) (s t : State) : Prop where
  kept : t = { s with groups := t.groups, adjs := t.adjs, twr := t.twr, rwk := t.rwk, rck := t.rck, nfu := t.nfu }
  list : ∀ g, g ∈ t.rck.rebuildList ↔ g ∈ s.rck.rebuildList ∨ joins g
  writer : t.twr.depleted = s.twr.depleted
  walker : t.rwk = { s.rwk with work := t.rwk.work, inFlight := t.rwk.inFlight }
  raised : Raised rs s t

/-- Record check's state after field `f` was found lost (R157). -/
def lostRck (f : DupField) (r : Rck) (l : List Nat) : Rck :=
  { r with lost := [f], lostCount := min (r.lostCount + 1) 4294967295, tableFault := true, rebuildList := l }

/-! ### Settling (R35 to R41) -/

/-- A group settled under the liveness of `s`. -/
def settled (s : State) (r : Group) : Group :=
  let live := liveList s r.members
  { r with
    members := r.members.map (fun m => { m with withdrawn := !memberLive s m })
    liveCount := live.length
    buckets := r.buckets.mapIdx (fun b k => { k with
      current := if k.home ∈ live then k.home else (live[b % live.length]?).getD k.current }) }

/-- What a settle of group `g` that leaves `live` live members raises (R40). -/
def depletionEvents (s : State) (g live : Nat) (notify : Bool) : List Nat :=
  if notify = false then []
  else if live = 0 ∧ g ∉ s.twr.depleted then [rankDepleted]
  else if live ≠ 0 ∧ g ∈ s.twr.depleted then [rankRestored]
  else []

/-- What a settle of group `g` that leaves `live` live members makes of the depleted set (R40, R41). -/
def DepletedAfter (s t : State) (g live : Nat) : Prop :=
  ∀ x, x ∈ t.twr.depleted ↔ if x = g then live = 0 else x ∈ s.twr.depleted

/-! ### Invariants -/

/-- Every table and ordered list is in its canonical form. -/
abbrev Canonical (s : State) : Prop :=
  tableWf {} s.groups = true ∧ tableWf {} s.adjs = true ∧ tableWf [] s.dpx.lists = true ∧ tableWf none s.rwk.jobs = true
    ∧ tableWf {} s.uma.monitors = true ∧ tableWf {} s.evu.lines = true ∧ tableWf {} s.evu.ports = true
    ∧ tableWf {} s.nfu.sources = true ∧ tableWf 0 s.rsu.substitutions = true
    ∧ rising s.twr.depleted = true ∧ rising s.rck.rebuildList = true ∧ ∀ e ∈ s.dpx.lists, rising e.2 = true

/-- The pool's free entries and the entries on the lists are the whole pool (R14). -/
abbrev PoolExact (s : State) : Prop := s.dpx.free + (s.dpx.lists.map (fun e => e.2.length)).sum = 16384

/-- The member records of INSTALLED and DAMAGED groups that name adjacency `a` (R8). -/
def memberRecords (s : State) (a : Nat) : Nat :=
  ((s.groups.filter (fun e => decide (e.2.status ≠ .notInstalled))).map
    (fun e => (e.2.members.map (·.adj)).count a)).sum

/-- The INSTALLED and DAMAGED groups that name `g` as backup (R16). -/
def referrerRecords (s : State) (g : Nat) : Nat :=
  (s.groups.filter (fun e => decide (e.2.status ≠ .notInstalled) && decide (e.2.backup = some g))).length

/-- Reference counts and referrer counts are exact, a NOT_INSTALLED group names nothing, and a backup is another group
that names no backup of its own (R8, R15, R16, R21). -/
def ReferencesExact (s : State) : Prop :=
  (∀ a, (s.adj a).refs = memberRecords s a) ∧ (∀ g, (s.group g).referrers = referrerRecords s g)
    ∧ (∀ g, (s.group g).status = .notInstalled → (s.group g).members = [] ∧ (s.group g).backup = none)
    ∧ ∀ g b, (s.group g).backup = some b → b ≠ g ∧ (s.group b).backup = none

/-- With every unit reading clean, no rebuild pending and every referenced adjacency VALID, each uplink's list is exactly
the INSTALLED or DAMAGED groups that have a member on it (R8, R13). -/
structure IndexExact (s : State) : Prop where
  clean : Clean s
  canonical : Canonical s
  references : ReferencesExact s
  valid : ∀ a, (s.adj a).refs ≠ 0 → (s.adj a).status = .valid
  listed : s.rck.dependencyPending = false
  lists : ∀ u, u < 32 → ∀ g, g ∈ s.depList u ↔ (s.group g).status ≠ .notInstalled
    ∧ ∃ m ∈ (s.group g).members, (s.adj m.adj).status = .valid ∧ (s.adj m.adj).uplink = some u

/-! ### What an event of one monitor does (chapter 4) -/

/-- A job that will walk its list from before first: its cursor stands there, or its restart field does (R132). -/
def walksAfresh (j : Job) : Prop := j.cursor = none ∨ j.restart = true

/-- From `s` to `t` nothing but monitor `n`, the walker's queue and the sources of `rs` changed; a job for `n` that walks
afresh stands when its liveness changed, and the walker is as it was when it did not (R83). -/
structure MonitorFollowed (n : Nat) (rs : List Nat) (s t : State) : Prop where
  others : ∀ k, k ≠ n → t.mon k = s.mon k
  array : t.uma = { s.uma with monitors := t.uma.monitors }
  kept : t = { s with fsl := t.fsl, uma := t.uma, evu := t.evu, twr := t.twr, rwk := t.rwk, nfu := t.nfu }
  walker : t.rwk = { s.rwk with work := t.rwk.work, inFlight := t.rwk.inFlight, jobs := t.rwk.jobs }
  writer : t.twr.depleted = s.twr.depleted
  jobs : ∀ u, u ≠ n → t.job u = s.job u
  job : if uplinkLive t n = uplinkLive s n then t.rwk = s.rwk ∧ t.twr = s.twr
        else ∃ j, t.job n = some j ∧ walksAfresh j
  raised : Raised rs s t

/-- Monitor `n` becomes `m'`; link and evidence unit are as they were. -/
structure MonitorMoved (n : Nat) (m' : Monitor) (rs : List Nat) (s t : State) : Prop where
  mon : t.mon n = m'
  link : t.fsl = s.fsl
  evidence : t.evu = s.evu
  followed : MonitorFollowed n rs s t

/-- A monitor with an active session and a bound port sends probes (R113). -/
def probing (m : Monitor) : Bool := m.active.session && decide (m.active.port ≠ none)

/-- The record of a monitor after entry to DOWN at instant `now` (R78, R88, R89): flap count, hold-down, DOWN-entry
counter, reason, and every timer of service stopped. -/
def downEntry (now : Nat) (why : Reason) (m : Monitor) : Monitor :=
  let f :=
    if m.state = .up ∨ m.state = .suspect then
      match m.lastService with
      | none => 0
      | some t => if now - t < 1000000 * m.cfg.flapWindow then min (m.flap + 1) 6 else 0
    else m.flap
  { m with
    state := .down
    reason := why
    flap := f
    hold := .running (now + 1000 * (m.cfg.holdBase * 2 ^ f))
    downEntries := (m.downEntries + 1) % 65536
    rollover := m.rollover || decide (m.downEntries + 1 = 65536)
    peerHold := false
    arrival := none
    decay := none
    qualify := none
    send := if probing m then some (now + 100 * m.cfg.txInterval) else m.send
    converged := m.converged && !monLive m }

/-- A port with one more holder (R100, R102). -/
def heldOnce (q : Port) : Port :=
  if q.holders = 0 then { q with holders := 1, suppression := .signalled } else { q with holders := q.holders + 1 }

/-- A port with one holder fewer at instant `now` (R100, R102). -/
def releasedOnce (now : Nat) (q : Port) : Port :=
  if q.holders = 1 then
    { q with holders := 0, suppression := if q.guardTime = 0 then .clear else .guard (now + 1000 * q.guardTime) }
  else { q with holders := q.holders - 1 }

/-- The transmit list after a message is given, which a link that is not ACTIVE drops (R182, R185). -/
def givenTo (f : Fsl) (m : TxMsg) (l : List TxMsg) : List TxMsg := if f.link = .active then giveTo m l else l

/-- Monitor `n`, with record `m` at the instant, enters DOWN because of `why` (R78): its bound port is held when
signal-on-down is yes, the fault signal of a first holder goes before its probe (log entry 18), and its uplink stops
being live. -/
structure DownEntered (n : Nat) (why : Reason) (m : Monitor) (s t : State) : Prop where
  mon : t.mon n = downEntry s.now why m
  ports : ∀ p, t.port p = if m.cfg.signal = true ∧ m.active.port = some p then heldOnce (s.port p) else s.port p
  evidence : t.evu = { s.evu with ports := t.evu.ports }
  link : t.fsl = { s.fsl with
    transmit :=
      let l :=
        match m.active.port with
        | none => s.fsl.transmit
        | some p =>
          if m.cfg.signal = true ∧ (s.port p).holders = 0 then givenTo s.fsl (.faultSignal p true) s.fsl.transmit
          else s.fsl.transmit
      match m.active.port with
      | none => l
      | some p =>
        if m.active.session then
          givenTo s.fsl (.probeSend { monitor := n, port := p, mine := m.active.localDisc, yours := m.learned,
                                      own := .down, txInterval := m.cfg.txInterval }) l
        else l }
  followed : MonitorFollowed n [rankMonitor n] s t

/-- What the checks of R77 and then R76 make of monitor `n` whose record at the instant is `m`, after an event that
raised the sources of `rs`. A set PEER_DOWN hold is at SUSPECT level exactly while the PEER_DOWN reaction is SUSPECT (log
entry 26). -/
def Checked (n : Nat) (m : Monitor) (rs : List Nat) (s t : State) : Prop :=
  match m.state with
  | .disabled => MonitorMoved n m rs s t
  | .down => MonitorMoved n m rs s t
  | .qualify =>
    match downCause false m with
    | some why => DownEntered n why m s t
    | none => MonitorMoved n m rs s t
  | .up =>
    match downCause false m, suspectCause m with
    | some why, _ => DownEntered n why m s t
    | none, some why =>
      MonitorMoved n { m with state := .suspect, reason := why, converged := m.converged && !m.cfg.drain }
        [rankMonitor n] s t
    | none, none => MonitorMoved n m rs s t
  | .suspect =>
    match downCause false m, suspectCause m with
    | some why, _ => DownEntered n why m s t
    | none, some _ => MonitorMoved n m rs s t
    | none, none =>
      if m.confidence ≤ m.cfg.clearAt then
        MonitorMoved n { m with state := .up, reason := .cleared, lastService := some s.now,
                                converged := m.converged && !m.cfg.drain } [rankMonitor n] s t
      else MonitorMoved n m rs s t

/-- A monitor's timers after an evidence event (R71, R74, R79): the qualify timer of a monitor without a session, and a
hold-down re-armed. -/
def evidenceRestarts (now : Nat) (m : Monitor) : Monitor :=
  if m.state = .qualify ∧ m.active.session = false then { m with qualify := some (now + 1000 * m.cfg.qualifyTime) }
  else if m.state = .down then { m with hold := .running (now + 1000 * (m.cfg.holdBase * 2 ^ m.flap)) }
  else m

/-- LOS evidence taking the value `v` is an activation that is noted (R70). -/
def notesLos (v : Bool) (m : Monitor) : Bool := v && !m.losActive && decide (m.cfg.losReaction = .notify)

/-- PORT_DOWN evidence taking the value `v` is an activation that is noted (R70). -/
def notesPort (v : Bool) (m : Monitor) : Bool := v && !m.portActive && decide (m.cfg.portReaction = .notify)

/-- LOS evidence takes the value `v` (R70). -/
def losValue (v : Bool) (m : Monitor) : Monitor :=
  { m with losActive := v, noted := { m.noted with los := m.noted.los || notesLos v m } }

/-- PORT_DOWN evidence takes the value `v` (R70). -/
def portValue (v : Bool) (m : Monitor) : Monitor :=
  { m with portActive := v, noted := { m.noted with port := m.noted.port || notesPort v m } }

/-- LOS evidence takes the value `v` as an evidence event unless its reaction is IGNORE (R70, R71). -/
def losTaken (now : Nat) (v : Bool) (m : Monitor) : Monitor :=
  if m.cfg.losReaction = .ignore then losValue v m else evidenceRestarts now (losValue v m)

/-- PORT_DOWN evidence takes the value `v`, as LOS does. -/
def portTaken (now : Nat) (v : Bool) (m : Monitor) : Monitor :=
  if m.cfg.portReaction = .ignore then portValue v m else evidenceRestarts now (portValue v m)

/-- The raise of a monitor that notes evidence (R70). -/
def notedRaise (n : Nat) (b : Bool) : List Nat := if b then [rankMonitor n] else []

/-- A filtered change `v` of its line as a monitor takes it in either latch mode (R95): the record, and the LOS activity. -/
def latched (v : Bool) (m : Monitor) : Monitor × Bool :=
  match m.cfg.latchMode with
  | .follow => (m, v)
  | .latch => ({ m with latch := m.latch || v }, m.latch || v)

/-- The end of suppression for LOS (`los`), for PORT_DOWN (`port`) or for both, as one monitor takes it (R104): `f` and
`d` are the filtered state of its line and whether its port's entry is DOWN. -/
def suppressionTaken (los port : Bool) (now : Nat) (f d : Bool) (m : Monitor) : Monitor × Bool :=
  let latch := if los then m.latch || (decide (m.cfg.latchMode = .latch) && f) else m.latch
  let v :=
    match m.active.los, m.cfg.latchMode with
    | none, _ => false
    | some _, .follow => f
    | some _, .latch => latch
  let m1 := if port then portValue d m else m
  let m2 := if los then losValue v { m1 with latch := latch } else m1
  (if (los = true ∧ m.cfg.losReaction ≠ .ignore) ∨ (port = true ∧ m.cfg.portReaction ≠ .ignore) then
      evidenceRestarts now m2
    else m2,
   (port && notesPort d m) || (los && notesLos v m))

/-- The monitors that take the events of line `l`: not DISABLED and bound to it (R94). -/
def onLine (s : State) (l : Nat) : List Nat :=
  (List.range 32).filter (fun n => decide ((s.mon n).state ≠ .disabled) && decide ((s.mon n).active.los = some l))

/-- The monitors that take the notices of port `p`: not DISABLED and bound to it (R98). -/
def onPort (s : State) (p : Nat) : List Nat :=
  (List.range 32).filter (fun n => decide ((s.mon n).state ≠ .disabled) && decide ((s.mon n).active.port = some p))

/-- The port that monitor `m` is bound to, if any, is suppressing (R102, R103). -/
def suppressedFor (s : State) (m : Monitor) : Prop := ∃ p, m.active.port = some p ∧ (s.port p).suppression ≠ .clear

/-- The port that monitor `m` is bound to, if any, is CLEAR. -/
def unsuppressed (s : State) (m : Monitor) : Prop := ∀ p, m.active.port = some p → (s.port p).suppression = .clear

/-- The filtered state of the line that monitor `m` is bound to; a monitor without a line sees none (R94). -/
def boundFiltered (s : State) (m : Monitor) : Bool := m.active.los.any (fun l => (s.line l).filtered)

/-- The port that monitor `m` is bound to stands DOWN (R98). -/
def boundDown (s : State) (m : Monitor) : Bool := m.active.port.any (fun p => decide ((s.port p).entry = .down))

/-- LOS as the evidence unit presents it outside suppression (R95). -/
def losPresented (s : State) (m : Monitor) : Bool :=
  match m.active.los, m.cfg.latchMode with
  | none, _ => false
  | some _, .follow => boundFiltered s m
  | some _, .latch => m.latch

/-- The port a monitor in DOWN holds (R100). -/
def holds (m : Monitor) : Option Nat := if m.state = .down ∧ m.cfg.signal = true then m.active.port else none

/-- The probe that monitor `n` with record `m` gives in own state `own` (R114). -/
def probeOf (n p : Nat) (own : OwnState) (m : Monitor) : TxMsg :=
  .probeSend { monitor := n, port := p, mine := m.active.localDisc, yours := m.learned, own := own,
               txInterval := m.cfg.txInterval }

/-- The transmit list after monitor `n` has given a probe in own state `own` (R113, R182). -/
def probeGiven (f : Fsl) (n : Nat) (own : OwnState) (m : Monitor) (l : List TxMsg) : List TxMsg :=
  match m.active.port with
  | none => l
  | some p => if m.active.session then givenTo f (probeOf n p own m) l else l

/-- The transmit list after a release of port `p` by its last holder (R100). -/
def releaseGiven (s : State) (released : Option Nat) (l : List TxMsg) : List TxMsg :=
  match released with
  | none => l
  | some p => if (s.port p).holders = 1 then givenTo s.fsl (.faultSignal p false) l else l

/-- Monitor `n` becomes `m'`, first releasing a port and then giving a probe where it does either (R78, R113); the
sources of `rs` are raised. -/
structure MonitorActed (n : Nat) (m' : Monitor) (released : Option Nat) (own : Option OwnState) (rs : List Nat)
    (s t : State) : Prop where
  mon : t.mon n = m'
  ports : ∀ q, t.port q = if released = some q then releasedOnce s.now (s.port q) else s.port q
  evidence : t.evu = { s.evu with ports := t.evu.ports }
  link : t.fsl = { s.fsl with
    transmit :=
      match own with
      | none => releaseGiven s released s.fsl.transmit
      | some o => probeGiven s.fsl n o m' (releaseGiven s released s.fsl.transmit) }
  followed : MonitorFollowed n rs s t

/-- Qualification at instant `now` (R73 step 4, R113, R120): the count, the qualify timer without a session, the arrival
timer and the send timer with one. -/
def qualifying (now : Nat) (m : Monitor) : Monitor :=
  { m with
    state := .qualify
    peerHold := false
    confidence := 0
    qualCount := 0
    peerTx := none
    qualify := if m.active.session then none else some (now + 1000 * m.cfg.qualifyTime)
    arrival := if m.active.session then some (now + 100 * m.cfg.minRx) else none
    send := if probing m then some (now + 100 * m.cfg.txInterval) else none }

/-- Completion of qualification at instant `now` (R75, R83, R113, R126). -/
def qualified (now : Nat) (m : Monitor) : Monitor :=
  let st := if (suspectCause m).isSome then MonState.suspect else .up
  { m with
    state := st
    reason := .qualified
    lastService := some now
    qualify := none
    decay := if m.active.session then none else some (now + 100000)
    send := if probing m then some (now + 100 * m.cfg.txInterval) else m.send
    converged := m.converged && !(decide (st = .up) || !m.cfg.drain) }

/-! ### Several monitors at one instant (R94, R98, R104) -/

/-- What `P` says of each number of a list, one after another. -/
def InTurn (P : Nat → State → State → Prop) : List Nat → State → State → Prop
  | [], s, t => t = s
  | n :: l, s, t => ∃ v, P n s v ∧ InTurn P l v t

/-- Each monitor of `ms` takes one event as `P` says for it alone, in an order that nothing fixes (log entry 8; a draw of
the free values decides it where there are several). -/
def EachTakes (ms : List Nat) (P : Nat → State → State → Prop) (s t : State) : Prop :=
  ∃ order, order.Perm ms ∧ InTurn P order { s with draws := if ms.length ≤ 1 then s.draws else s.draws + 1 } t

/-- One event from `s` to `t` that does what `P` says, its vector messages those its raises call for together (R175). -/
def OneEvent (P : State → State → Prop) (s t : State) : Prop :=
  ∃ v, P s v ∧ t = { v with nfu := { v.nfu with vectors := s.nfu.vectors ++ newVectors s v } }

/-- The port that monitor `m` is bound to suppresses (R102). -/
def portSuppresses (s : State) (m : Monitor) : Bool :=
  m.active.port.any (fun p => decide ((s.port p).suppression ≠ .clear))

/-- Monitor `n` is under suppression for LOS (R103). -/
def losWithheld (s : State) (n : Nat) : Bool := (s.mon n).cfg.echoLos && portSuppresses s (s.mon n)

/-- Monitor `n` is under suppression for PORT_DOWN (R103). -/
def portWithheld (s : State) (n : Nat) : Bool := (s.mon n).cfg.echoPort && portSuppresses s (s.mon n)

/-- From `s` to `t` each port of `ps` counted one withheld change or notice (R103; log entry 9). -/
def Withheld (ps : List Nat) (s t : State) : Prop :=
  t = { s with evu := { s.evu with ports := t.evu.ports } }
    ∧ ∀ p, t.port p = if p ∈ ps then { s.port p with suppressed := min ((s.port p).suppressed + 1) 65535 } else s.port p

/-- A filtered change `v` of line `l`, standing in `s` (R94, R103): withheld from the monitors under suppression for LOS,
once for each of their ports, and taken by each of the others. -/
def FilteredTaken (l : Nat) (v : Bool) (s t : State) : Prop :=
  ∃ w, Withheld (((onLine s l).filter (losWithheld s)).filterMap (fun n => (s.mon n).active.port)) s w
    ∧ OneEvent (EachTakes ((onLine s l).filter (fun n => !losWithheld s n)) (fun n =>
        let m := latched v (s.mon n)
        Checked n (losTaken s.now m.2 m.1) (notedRaise n (notesLos m.2 m.1)))) w t

/-- A notice of port `p`, standing in `s` (R98, R103): withheld from the monitors under suppression for PORT_DOWN, which
the port counts once, and taken by each of the others as `P` says. -/
def NoticeTaken (p : Nat) (P : Nat → State → State → Prop) (s t : State) : Prop :=
  ∃ w, Withheld (if (onPort s p).any (portWithheld s) then [p] else []) s w
    ∧ OneEvent (EachTakes ((onPort s p).filter (fun n => !portWithheld s n)) P) w t

/-- The end of suppression standing in `s`, as monitor `n` takes it (R104). -/
def EndTaken (s : State) (n : Nat) : State → State → Prop :=
  let m := s.mon n
  let taken := suppressionTaken m.cfg.echoLos m.cfg.echoPort s.now (boundFiltered s m) (boundDown s m) m
  Checked n taken.1 (notedRaise n taken.2)

/-- The monitors that take the end of port `p`'s suppression (R104). -/
def endTakers (s : State) (p : Nat) : List Nat :=
  (onPort s p).filter (fun n => (s.mon n).cfg.echoLos || (s.mon n).cfg.echoPort)

/-- The last holder releases a suppressing port whose guard time is 0, so that the port goes to CLEAR (R102). -/
def releaseClears (s : State) (released : Option Nat) : Bool :=
  released.any (fun p => decide ((s.port p).suppression ≠ .clear ∧ (s.port p).holders = 1 ∧ (s.port p).guardTime = 0))

/-- After monitor `n`'s release, the others bound to a port that it took to CLEAR take the end of its suppression, each
as an evidence event of its own (R104). -/
def OthersTake (s : State) (n : Nat) (released : Option Nat) (mid t : State) : Prop :=
  match released with
  | none => t = mid
  | some p =>
    if releaseClears s released then EachTakes ((endTakers s p).filter (fun k => decide (k ≠ n))) (EndTaken s) mid t
    else t = mid

/-! ### Binding and qualification (R73, R84 to R86, R97, R104, R110) -/

/-- A port after one monitor has taken a hold of `held` or released `released`. -/
def portAfter (s : State) (held released : Option Nat) (p : Nat) : Port :=
  if held = some p then heldOnce (s.port p)
  else if released = some p then releasedOnce s.now (s.port p)
  else s.port p

/-- The port that `m` is bound to suppresses after that hold or release. -/
def suppressesAfter (s : State) (held released : Option Nat) (m : Monitor) : Bool :=
  m.active.port.any (fun p => decide ((portAfter s held released p).suppression ≠ .clear))

/-- The filtered state of a binding's line. -/
def lineOf (s : State) (b : Binding) : Bool := b.los.any (fun l => (s.line l).filtered)

/-- The staged fields `b` become active in record `m` (R86): a changed session forgets its peer (R110), a changed line
takes the latch from its filtered state (R97), and the timers of a session that is no more stop (R113, R120). -/
def rebind (s : State) (b : Binding) (m : Monitor) : Monitor :=
  let same := m.active.session = b.session ∧ m.active.localDisc = b.localDisc ∧ m.active.remoteDisc = b.remoteDisc
    ∧ m.active.matchMask = b.matchMask
  let m1 := { m with
    active := b
    pending := none
    learned := if same then m.learned else 0
    peerState := if same then m.peerState else .unknown
    peerTx := if same then m.peerTx else none
    latch := if m.active.los = b.los then m.latch else decide (m.cfg.latchMode = LatchMode.latch) && lineOf s b }
  { m1 with send := if probing m1 then m.send else none, arrival := if b.session then m.arrival else none }

/-- The evidence that a monitor takes at step 2 of R73: what stands, but for a source under suppression (`held`) whose
binding is not new, which keeps its activity (R103). The second part says that an activation is noted. -/
def entryEvidence (s : State) (held newLos newPort : Bool) (m : Monitor) : Monitor × Bool :=
  let keepLos := m.cfg.echoLos && held && !newLos
  let keepPort := m.cfg.echoPort && held && !newPort
  let v := losPresented s m
  let d := boundDown s m
  let m1 := if keepLos then m else losValue v m
  (if keepPort then m1 else portValue d m1, (!keepLos && notesLos v m) || (!keepPort && notesPort d m))

/-- Steps 3 and 4 of R73 where qualification restarts at instant `now` (R86). -/
def requalifying (now : Nat) (m : Monitor) : Monitor :=
  { m with
    peerHold := false
    confidence := 0
    qualCount := 0
    qualify := if m.active.session then none else some (now + 1000 * m.cfg.qualifyTime)
    arrival := if m.active.session then some (now + 100 * m.cfg.minRx) else none }

/-- Steps 5 and 6 of R73 for monitor `n`, which has taken record `m` in QUALIFY with the effects that `MonitorActed`
names: back to DOWN, into service at once, or neither. -/
def EntersQualify (n : Nat) (m : Monitor) (released : Option Nat) (own : Option OwnState) (rs : List Nat)
    (s t : State) : Prop :=
  ∃ mid, MonitorActed n m released own rs s mid
    ∧ match downCause false m with
      | some why => DownEntered n why m mid t
      | none =>
        if m.active.session = false ∧ m.cfg.qualifyTime = 0 then MonitorMoved n (qualified s.now m) [rankMonitor n] mid t
        else t = mid

/-- A monitor's record after steps 1 and 2 of R84 in a state other than DISABLED (R86, R97). -/
def written (s : State) (c : MonCfg) (b : Binding) (m : Monitor) : Monitor :=
  let m1 := { m with cfg := c, damaged := false }
  let m2 := if m.state = .qualify then rebind s b m1 else { m1 with pending := some b }
  { m2 with
    latch := if m.cfg.latchMode = c.latchMode then m2.latch
      else decide (c.latchMode = LatchMode.latch) && boundFiltered s m2 }

/-- A held hold-down without a source at DOWN level is re-armed (R79). -/
def rearmed (now : Nat) (m : Monitor) : Monitor :=
  if m.state = .down ∧ m.hold = .held ∧ downCause false m = none then
    { m with hold := .running (now + 1000 * (m.cfg.holdBase * 2 ^ m.flap)) }
  else m

/-- Monitor `n` becomes `m'` at a write that makes it hold `held` or release `released` (R85, R100). -/
structure MonitorWritten (n : Nat) (m' : Monitor) (held released : Option Nat) (rs : List Nat) (s t : State) : Prop where
  mon : t.mon n = m'
  ports : ∀ p, t.port p = portAfter s held released p
  evidence : t.evu = { s.evu with ports := t.evu.ports }
  link : t.fsl = { s.fsl with
    transmit :=
      match held with
      | some p =>
        if (s.port p).holders = 0 then givenTo s.fsl (.faultSignal p true) s.fsl.transmit else s.fsl.transmit
      | none => releaseGiven s released s.fsl.transmit }
  followed : MonitorFollowed n rs s t

/-- A monitor's record after record check found it uncorrectable (R82, R129). -/
def damagedMonitor (now : Nat) (m : Monitor) : Monitor :=
  let m1 := { m with
    damaged := true
    cfg := {}
    active := {}
    pending := none
    losActive := false
    portActive := false
    latch := false
    hostActive := true
    reason := .damaged
    learned := 0
    peerState := .unknown
    peerTx := none
    qualCount := 0
    arrival := none
    send := none
    decay := none }
  match m.state with
  | .disabled => { m1 with hostActive := false }
  | .down => { m1 with hold := if m.hostActive then m.hold else .running (now + 50000 * 2 ^ m.flap) }
  | _ => { downEntry now .damaged m1 with converged := m.converged && !monLive m }

/-- The arrival period in us (R120). -/
def periodOf (m : Monitor) : Nat :=
  100 * (match m.peerTx with
    | none => m.cfg.minRx
    | some p => max m.cfg.minRx p)

/-! ### Walker steps (chapter 7) -/

/-- The walker's step is the table writer's operation (R145). -/
abbrev StepGranted (w : Work) (s : State) : Prop :=
  s.rwk.work = w ∧ s.rwk.inFlight = true ∧ s.twr.performing = some .walker

/-- The first INSTALLED group of the table above a cursor (R139, R143). -/
def installedAbove (s : State) (c : Option Nat) : Option Nat :=
  ((s.groups.filter (fun e => decide (e.2.status = .installed))).map (·.1)).find? (fun g => c.all (fun k => decide (k < g)))

/-- The handle a job step for `u` finds (R133, R139). -/
def jobFinds (s : State) (u : Nat) (c : Option Nat) : Option Nat :=
  if s.rck.dependencyPending then installedAbove s c else (s.depList u).find? (fun g => c.all (fun k => decide (k < g)))

/-- A group after a walker or audit settle that publishes what it changes (R37, R42). -/
def settledByStep (s : State) (r : Group) : Group :=
  let r' := settled s r
  if r.status ≠ .installed then r
  else if r'.members.map (·.withdrawn) = r.members.map (·.withdrawn) ∧ r'.buckets.map (·.current) = r.buckets.map (·.current)
  then r'
  else { r' with revision := (r.revision + 1) % 65536 }

/-- What a walker settle of `g` raises (R40). -/
def stepEvents (s : State) (g : Nat) : List Nat :=
  if (s.group g).status = .installed then depletionEvents s g (settled s (s.group g)).liveCount (s.group g).notify else []

/-- What a walker settle of `g` makes of the depleted set (R40). -/
def StepDepleted (s t : State) (g : Nat) : Prop :=
  if (s.group g).status = .installed then DepletedAfter s t g (settled s (s.group g)).liveCount
  else t.twr.depleted = s.twr.depleted

/-- The uplink whose job the walker takes at a step boundary that leaves the part as `t` (cases 1 and 2 of R137): the
IN_PROGRESS job's unless another's level is lower, else the lowest-numbered of those of the lowest level. -/
def jobChosen (inProgress : Option Nat) (t : State) : Option Nat :=
  let jobs := t.rwk.jobs.map (·.1)
  let best := jobs.filter (fun u => jobs.all (fun v => decide ((t.mon u).cfg.priority ≤ (t.mon v).cfg.priority)))
  match inProgress with
  | some u => if u ∈ best then some u else best.head?
  | none => best.head?

/-- The work the walker takes at a step boundary that leaves the part as `t`; IDLE in case 6 (R137). -/
def workChosen (inProgress : Option Nat) (t : State) : Work :=
  match jobChosen inProgress t with
  | some u => .job u
  | none =>
    if t.rck.dependencyPending = true ∧ t.rck.tableFault = false then .dependencyRebuild
    else if t.rck.rebuildList ≠ [] then .rebuild
    else if t.rwk.audit = .pass then .audit
    else .idle

/-- After a walker step from `s` the walker has chosen its next work by R137, a taken job alone being IN_PROGRESS, and the
table writer has started its next operation by R146. -/
structure StepFollowed (inProgress : Option Nat) (s t : State) : Prop where
  work : t.rwk.work = workChosen inProgress t
  flight : t.rwk.inFlight = decide (t.rwk.work ≠ .idle)
  taken : ∀ u, t.rwk.work = .job u → ∀ v j, t.job v = some j → j.inProgress = decide (v = u)
  writer :
    if t.rwk.inFlight = true ∧ ¬ (s.cme.executing.isSome = true ∧ 8 ≤ s.twr.runCount) then
      t.twr.performing = some .walker
        ∧ t.twr.runCount = if s.cme.executing.isSome then min (s.twr.runCount + 1) 8 else s.twr.runCount
    else if s.cme.executing.isSome then t.twr.performing = some .engine ∧ t.twr.runCount = 0
    else t.twr.performing = none ∧ t.twr.runCount = s.twr.runCount

/-- From `s` to `t` no job came, went or moved but those of `moved`: each keeps its cursor and its restart field, and the
one that is the walker's work is IN_PROGRESS (R131, R137). -/
def JobsKept (moved : List Nat) (s t : State) : Prop :=
  ∀ v, v ∉ moved → t.job v = (s.job v).map (fun j => { j with inProgress := decide (t.rwk.work = .job v) })

/-- From `s` to `t` the walker changed its work and its jobs, and nothing of the audit. -/
def AuditKept (s t : State) : Prop :=
  t.rwk = { s.rwk with work := t.rwk.work, inFlight := t.rwk.inFlight, jobs := t.rwk.jobs }

/-- What a walker step leaves of the part's other blocks. -/
def StepKept (s t : State) : Prop :=
  t = { s with groups := t.groups, dpx := t.dpx, twr := t.twr, rwk := t.rwk, uma := t.uma, rck := t.rck, nfu := t.nfu }

/-! ### Further invariants -/

/-- The three quantities of R184: 64 while the link is ACTIVE, nothing while it is not. -/
abbrev CreditsBalanced (s : State) : Prop :=
  if s.fsl.link = .active then s.rsu.answers.length + s.fsl.credits + (s.fsl.transmit.map creditsOf).sum = 64
  else s.rsu.answers = [] ∧ s.fsl.transmit = [] ∧ s.fsl.credits = 0

/-- The command engine's queues within their depths, room for the response of the table command in execution, and no
record waiting that the engine could take (R163 to R168). -/
structure EngineConsistent (s : State) : Prop where
  queue : s.cme.queue.length ≤ 16
  responses : s.cme.responses.length ≤ 16
  room : s.cme.executing.isSome = true → s.cme.responses.length < 16
  waiting : s.cme.queue ≠ [] → s.cme.executing.isSome = true ∨ s.cme.responses.length = 16
  discard : s.cme.discard = true → s.cme.executing.isSome = true
  table : ∀ e, s.cme.executing = some e → isTable e.cmd = true

/-- The table writer performs one of the operations that stand, is free only when none does, and has not passed over a
waiting command more than 8 times; a walker without a step in flight is IDLE and has found no work (R136, R145, R146). -/
structure WriterConsistent (s : State) : Prop where
  free : s.twr.performing = none → s.rwk.inFlight = false ∧ s.cme.executing = none
  walker : s.twr.performing = some .walker → s.rwk.inFlight = true
  engine : s.twr.performing = some .engine → s.cme.executing.isSome = true
  run : s.twr.runCount ≤ 8
  idle : s.rwk.work = .idle ↔ s.rwk.inFlight = false
  served : WalkerServed s

/-- Every holder count is the number of monitors that hold the port, and a port is SIGNALLED exactly while it is held
(R100, R102). -/
def HoldersExact (s : State) : Prop :=
  ∀ p, (s.port p).holders = ((List.range 32).filter (fun n => decide (holds (s.mon n) = some p))).length
    ∧ ((s.port p).suppression = .signalled ↔ (s.port p).holders ≠ 0)

end Sys2Proof.Machine
end

