-- ==== Sys2Proof/Certificates/Slice0/Obligations.lean ====
section
/-!
DEFINITION. The statements about the part that are to be proved.
-/

open Sys2Proof Sys2Proof.Machine

/-! ### Steps, resets and the route-processor port -/

/-- A step runs the command at the front of the queue on the queue's rest; with nothing waiting it is one tick of the
time base and nothing else (the model's form of a step, log entry 1). -/
def Obligations.StepRunsFrontCommandOrTicks : Prop :=
  ∀ s : State, (∀ c rest, s.pending = c :: rest → step s = exec c { s with pending := rest })
    ∧ (s.pending = [] → step s = .next { s with now := s.now + 1 })

/-- No command stops the part, and none touches the commands that wait (log entry 1). -/
def Obligations.EveryCommandAnswersANextState : Prop :=
  ∀ (i : Instr) (s : State), ∃ t, exec i s = .next t ∧ t.pending = s.pending

/-- Device reset: every block at its reset value, and a line sampled asserted taken as a raw assertion at that instant
under the reset filter of 100 us (log entries 7, 20, 21 name the values that are the model's). -/
def Obligations.DeviceResetLeavesResetState : Prop :=
  ∀ (levels : BitVec 16) (s : State), ∃ t, exec (.deviceReset levels) s = .next t
    ∧ t = { State.reset with pending := s.pending, draws := s.draws, evu := t.evu }
    ∧ t.evu.ports = [] ∧ t.evu.badNotices = 0
    ∧ ∀ l, t.line l = if l < 16 ∧ levels.getLsbD l = true then { raw := true, timer := .towardAssert 100 } else {}

/-- RPP reset: both queues empty, a command in execution keeps running with its response discarded, every source
masked with its pending flag and class kept, vector messages not yet sent lost; everything else as it was. -/
def Obligations.RppResetEmptiesQueuesAndMasksSources : Prop :=
  ∀ s : State, tableWf {} s.nfu.sources = true → ∃ t, exec .rppReset s = .next t
    ∧ t = { s with cme := t.cme, nfu := t.nfu }
    ∧ t.cme = { s.cme with queue := [], responses := [], discard := s.cme.executing.isSome }
    ∧ t.nfu.vectors = [] ∧ ∀ k, t.source k = { s.source k with masked := true }

/-- One write to the command window: dropped and counted at a full queue, queued while the engine cannot take it, and
otherwise taken at once. -/
def Obligations.CommandWindowWriteDeliversOneRecord : Prop :=
  ∀ (bytes : List Byte) (s : State), let r := bytes.take 256
    (16 ≤ s.cme.queue.length → WalkerServed s →
      ∃ t, exec (.commandWindowWrite bytes) s = .next t ∧ t = { s with cme := t.cme, nfu := t.nfu }
        ∧ t.cme = { s.cme with overflow := min (s.cme.overflow + 1) 4294967295 } ∧ Raised [rankOverflow] s t)
    ∧ (s.cme.queue.length < 16 → (s.cme.executing.isSome = true ∨ 16 ≤ s.cme.responses.length) →
      exec (.commandWindowWrite bytes) s = .next { s with cme := { s.cme with queue := s.cme.queue ++ [r] } })
    ∧ (EngineFree s → ∀ st, parseRecord r = .error st →
      Answers (.commandWindowWrite bytes) (refusing (recordTag r) (recordCode r) st) s)
    ∧ (EngineFree s → ∀ c, parseRecord r = .ok c → isTable c = true → s.rck.tableFault = true →
      Answers (.commandWindowWrite bytes) (refusing (recordTag r) c.code .damaged) s)
    ∧ (EngineFree s → ∀ c, parseRecord r = .ok c → isTable c = true → s.rck.tableFault = false →
      exec (.commandWindowWrite bytes) s = .next { s with
        cme := { s.cme with executing := some { tag := recordTag r, cmd := c } }
        twr := if s.twr.performing = none then { s.twr with performing := some .engine, runCount := 0 } else s.twr })
    ∧ (EngineFree s → ∀ c, parseRecord r = .ok c → isTable c = false → c.fits = true →
      exec (.commandWindowWrite bytes) s = exec (rowOf (recordTag r) c) s)

/-- One read of the response window: zeros from an empty queue; otherwise the head response leaves, cut or padded to the
read's length, and an IDLE engine with commands waiting takes the next at the instant of the removal. -/
def Obligations.ResponseWindowReadRemovesTheHead : Prop :=
  ∀ (length : Nat) (s : State),
    (s.cme.responses = [] →
      exec (.responseWindowRead length) s = .next { s with out := { s.out with hostRead := List.replicate length 0 } })
    ∧ ∀ r rs, s.cme.responses = r :: rs →
      let u := { s with
        cme := { s.cme with responses := rs }
        out := { s.out with hostRead := (responseBytes r ++ List.replicate length 0).take length } }
      (s.cme.executing.isSome = true ∨ s.cme.queue = [] ∨ 16 < s.cme.responses.length →
        exec (.responseWindowRead length) s = .next u)
      ∧ exec (.responseWindowRead length) s = exec .commandTake u

/-- The engine takes the head record while it is IDLE and a response entry is free, and goes on taking at the same
instant until it cannot: after the response of a header refusal, and after that of a command that it performs at once,
which acts as its own row does with nothing queued behind it, and so starts the operation of a walker that it wakes
before a table command queued behind it is taken (the model's choice, log entry 39). A table command in execution waits
while the table writer has not started its operation (its step is log entry 4's, one that changes nothing log entry 17's), and is
refused with DAMAGED when the operation finds table fault set. -/
def Obligations.CommandTakeServesTheHeadRecord : Prop :=
  ∀ s : State,
    (s.cme.queue = [] ∨ s.cme.executing.isSome = true ∨ 16 ≤ s.cme.responses.length →
      exec .commandTake s = .next s)
    ∧ (s.cme.executing = none → s.cme.responses.length < 16 → ∀ r q, s.cme.queue = r :: q →
      let u := { s with cme := { s.cme with queue := q } }
      (∀ st, parseRecord r = .error st →
        ∃ v, Responded (refusing (recordTag r) (recordCode r) st) u v ∧ exec .commandTake s = exec .commandTake v)
      ∧ (∀ c, parseRecord r = .ok c → isTable c = true → s.rck.tableFault = true →
        ∃ v, Responded (refusing (recordTag r) c.code .damaged) u v ∧ exec .commandTake s = exec .commandTake v)
      ∧ (∀ c, parseRecord r = .ok c → isTable c = true → s.rck.tableFault = false →
        exec .commandTake s = .next { u with
          cme := { u.cme with executing := some { tag := recordTag r, cmd := c } }
          twr := if s.twr.performing = none then { s.twr with performing := some .engine, runCount := 0 } else s.twr })
      ∧ (∀ c, parseRecord r = .ok c → isTable c = false → c.fits = true → q = [] →
        exec .commandTake s = exec (rowOf (recordTag r) c) u)
      ∧ (∀ c, parseRecord r = .ok c → isTable c = false → c.fits = true →
        ∃ v, exec (rowOf (recordTag r) c) { u with cme := { u.cme with queue := [] } } = .next v
          ∧ exec .commandTake s = exec .commandTake { v with cme := { v.cme with queue := q } }))
    ∧ ∀ (tag : Half) (c : HostCmd), isTable c = true → s.cme.executing = some { tag := tag, cmd := c } →
      (s.twr.performing ≠ some .engine → exec (rowOf tag c) s = .next s)
      ∧ (s.twr.performing = some .engine → s.cme.queue = [] → WalkerServed s → s.rck.tableFault = true →
        TableRefused (rowOf tag c) tag c.code .damaged s)

/-- A write that the port ignores changes no state. A read of the command window or of an unused offset gives zeros; a
read of the status word gives its four bytes, most significant first, whose bits are the fields of R162 at the places of
R188 (such reads change nothing and are no command: log entry 24). The port sends the vector messages it was given in
turn (first in first out: log entry 13); with none given nothing happens (log entry 17), and `out.vectorSent` is the
model's record of the one sent (log entry 20). -/
def Obligations.IgnoredWritesAndVectorMessages : Prop :=
  (∀ (target : IgnoredTarget) (s : State), exec (.ignoredWrite target) s = .next s)
    ∧ (∀ s : State, s.nfu.vectors = [] → exec .vectorMessageSend s = .next s)
    ∧ (∀ (s : State) (v : VectorMsg) (vs : List VectorMsg), s.nfu.vectors = v :: vs →
      exec .vectorMessageSend s
        = .next { s with nfu := { s.nfu with vectors := vs }, out := { s.out with vectorSent := some v } })
    ∧ (∀ (length : Nat) (s : State), hostReadData .commandWindow length s = List.replicate length 0
      ∧ ∀ k, hostReadData (.unused k) length s = List.replicate length 0)
    ∧ ∀ s : State, s.cme.queue.length ≤ 16 → s.cme.responses.length ≤ 16 →
      ∃ b0 b1 b2 b3 : Byte, hostReadData .statusWord 4 s = [b0, b1, b2, b3]
        ∧ (let w := ((b0.toNat * 256 + b1.toNat) * 256 + b2.toNat) * 256 + b3.toNat
          w < 2 ^ 16
          ∧ w % 32 = 16 - s.cme.queue.length ∧ w / 32 % 32 = s.cme.responses.length
          ∧ (w / 2 ^ 10 % 2 = 1 ↔ s.cme.executing.isSome = true) ∧ (w / 2 ^ 11 % 2 = 1 ↔ s.cme.discard = true)
          ∧ w / 2 ^ 12 % 4 = (match s.fsl.link with | .down => 0 | .training => 1 | .active => 2)
          ∧ (w / 2 ^ 14 % 2 = 1 ↔ s.rck.tableFault = true) ∧ (w / 2 ^ 15 % 2 = 1 ↔ s.rck.dependencyPending = true))

/-! ### Command records -/

/-- Every command reads back from its record, with its host tag, and every message that the forwarding chip sends reads
back from its bytes under its marker. -/
def Obligations.CommandRecordReadsBack : Prop :=
  (∀ (tag : Half) (c : HostCmd), c.fits = true →
    parseRecord (recordBytes tag c) = .ok c ∧ recordTag (recordBytes tag c) = tag
      ∧ recordCode (recordBytes tag c) = c.code)
  ∧ ∀ (i : Instr) (m : Marker) (f : List Byte), inboundFrame i = some (m, f) →
    inboundCommand m f = some i ∧ goodFrame m f = true

/-! ### Commands performed at their taking -/

/-- IDENTIFY, DEPLETED_LIST and JOB_STATUS answer from the state of their instant and change nothing. -/
def Obligations.StatusReadsAnswerTheStateOfTheirInstant : Prop :=
  ∀ (tag start : Half) (s : State), EngineFree s → WalkerServed s →
    Answers (.identify tag) (answering tag 0x01 .ok (.identity (min (s.now / 1000000) 4294967295))) s
    ∧ (4096 ≤ start.toNat → Answers (.depletedList tag start) (refusing tag 0x24 .range) s)
    ∧ (start.toNat < 4096 →
      let found := s.twr.depleted.filter (fun g => decide (start.toNat ≤ g))
      Answers (.depletedList tag start) (answering tag 0x24 .ok (.handles (found.take 32) (decide (32 < found.length)))) s)
    ∧ Answers (.jobStatus tag) (answering tag 0x40 .ok (.jobs
        { walker := s.rwk
          levels := (List.range 32).map (fun u => ((s.mon u).cfg.priority, (s.mon u).converged))
          rebuildCount := s.rck.rebuildList.length
          rebuildLowest := s.rck.rebuildList.head?
          dependencyPending := s.rck.dependencyPending
          tableFault := s.rck.tableFault
          readAt := s.now
          runCount := s.twr.runCount })) s

/-- COUNTERS_READ returns every counter and, with clear yes, sets each to 0 after its value is taken; the free pool
entries and the two flags are not cleared. -/
def Obligations.CountersReadReturnsThenClears : Prop :=
  ∀ (tag : Half) (clear : Byte) (s : State), EngineFree s → WalkerServed s →
    Performs (.countersRead tag clear)
      (fun u =>
        if clear = 0 then u = s
        else u = { s with rsu := u.rsu, uma := u.uma, evu := u.evu, rck := u.rck, cme := u.cme, fsl := u.fsl }
          ∧ u.rsu = { s.rsu with answerCounts := {}, testCounts := {}, substitutions := [] }
          ∧ u.uma = { s.uma with strays := 0 } ∧ u.evu = { s.evu with badNotices := 0 }
          ∧ u.rck = { s.rck with corrected := {}, uncorrected := {}, lostCount := 0 }
          ∧ u.cme = { s.cme with overflow := 0 } ∧ u.fsl = { s.fsl with discards := 0, overruns := 0 })
      (fun _ => answering tag 0x50 .ok (.counters
        { answers := s.rsu.answerCounts
          tests := s.rsu.testCounts
          substitutions := (List.range 32).map s.substitution
          strays := s.uma.strays
          badNotices := s.evu.badNotices
          corrected := s.rck.corrected
          uncorrected := s.rck.uncorrected
          lost := s.rck.lostCount
          overflow := s.cme.overflow
          discards := s.fsl.discards
          overruns := s.fsl.overruns
          free := s.dpx.free
          tableFault := s.rck.tableFault
          dependencyPending := s.rck.dependencyPending })) s

/-- ADJ_READ and GROUP_READ. An index outside the table is refused. An INVALID adjacency returns the reset values, a
DAMAGED one its status and reference count alone. A NOT_INSTALLED group is refused, a DAMAGED one gives status DAMAGED
with its backup handle and revision, an INSTALLED one returns all its content. What record check finds on the way: a
unit read corrected, or a copy whose twin is good, is written back and counted; an uncorrectable content part, or a
lost field, degrades its record, and an uncorrectable bucket places its group on the rebuild list. A lost field counts
as lost and in no kind's counter, and the groups of an adjacency it takes to DAMAGED join the rebuild list (log entry
12, DEDUCED). The rebuild-pending flag and the status DAMAGED are given as the read leaves them (log entry 16,
DEDUCED). -/
def Obligations.ReadsReturnVisibleContent : Prop :=
  ∀ (tag adj group : Half) (s : State), EngineFree s → WalkerServed s →
    let x := s.adj adj.toNat
    let g := group.toNat
    let r := s.group g
    let adjRead := Instr.adjRead tag adj
    let groupRead := Instr.groupRead tag group
    let adjAnswer := answering tag 0x12 .ok
      (match x.status with
        | .invalid => .adjacency .invalid 0 0 none 0
        | .valid => .adjacency .valid x.port x.rewrite x.uplink x.refs
        | .damaged => .adjacency .damaged 0 0 none x.refs)
    let damagedAdj := answering tag 0x12 .ok (.adjacency .damaged 0 0 none x.refs)
    let groupAnswer := fun (pending : Bool) (buckets : List (Option Bucket)) => answering tag 0x22 .ok (.group
      { group := r, rebuildPending := pending, depleted := decide (g ∈ s.twr.depleted), buckets := buckets })
    let damagedGroup := answering tag 0x22 .damaged (.damagedGroup r.backup r.revision)
    (8192 ≤ adj.toNat → Answers adjRead (refusing tag 0x12 .range) s)
    ∧ (4096 ≤ g → Answers groupRead (refusing tag 0x22 .range) s)
    ∧ (adj.toNat < 8192 → Clean s → Answers adjRead adjAnswer s)
    ∧ (g < 4096 → Clean s →
      match r.status with
      | .notInstalled => Answers groupRead (refusing tag 0x22 .notInstalled) s
      | .damaged => Answers groupRead damagedGroup s
      | .installed => Answers groupRead (groupAnswer (decide (g ∈ s.rck.rebuildList)) (r.buckets.map some)) s)
    ∧ (adj.toNat < 8192 →
      let content := RecUnit.adjContent adj.toNat
      let firstCopies := [RecUnit.copy (.adjStatus adj.toNat) false, .copy (.adjRefs adj.toNat) false]
      (∀ u ∈ firstCopies, ∀ d, OnlyDamaged u d s →
        Performs adjRead (fun v => v = corrected .adjacency s) (fun _ => adjAnswer) s)
      ∧ (x.status ≠ .damaged → OnlyDamaged content .correctable s →
        Performs adjRead (fun v => v = corrected .adjacency s) (fun _ => adjAnswer) s)
      ∧ (x.status ≠ .damaged → OnlyDamaged content .uncorrectable s →
        Performs adjRead (fun v => Degraded (joinsFor s adj.toNat) [rankIntegrity] s v ∧ v.groups = s.groups
          ∧ (∀ a, v.adj a = if a = adj.toNat then { x with status := .damaged } else s.adj a)
          ∧ v.rck = { s.rck with
              uncorrected := s.rck.uncorrected.bump .adjacency, rebuildList := v.rck.rebuildList })
          (fun _ => damagedAdj) s)
      ∧ ∀ f ∈ [DupField.adjStatus adj.toNat, .adjRefs adj.toNat], OnlyLost f s →
        Performs adjRead (fun v =>
          Degraded (fun h => x.status ≠ .damaged ∧ joinsFor s adj.toNat h) [rankIntegrity] s v ∧ v.groups = s.groups
          ∧ (∀ a, v.adj a = if a = adj.toNat then { x with status := .damaged } else s.adj a)
          ∧ v.rck = lostRck f s.rck v.rck.rebuildList)
          (fun _ => damagedAdj) s)
    ∧ (g < 4096 → r.status = .installed →
      let answer := groupAnswer (decide (g ∈ s.rck.rebuildList)) (r.buckets.map some)
      let contents := (RecUnit.headerContent g, RecKind.header)
        :: (List.range r.members.length).map (fun i => (RecUnit.memberContent g i, RecKind.member))
      let copies := [DupField.groupStatus g, .groupRevision g, .groupReferrers g, .groupBackup g].map
          (fun f => (RecUnit.copy f false, RecKind.header))
        ++ (List.range r.members.length).map (fun i => (RecUnit.copy (.memberLink g i) false, RecKind.member))
      let buckets := (List.range r.buckets.length).map (fun b => (RecUnit.bucket g b, RecKind.bucket))
      (∀ u ∈ copies, ∀ d, OnlyDamaged u.1 d s →
        Performs groupRead (fun v => v = corrected u.2 s) (fun _ => answer) s)
      ∧ (∀ u ∈ contents ++ buckets, OnlyDamaged u.1 .correctable s →
        Performs groupRead (fun v => v = corrected u.2 s) (fun _ => answer) s)
      ∧ (∀ u ∈ contents, OnlyDamaged u.1 .uncorrectable s →
        Performs groupRead (fun v => Degraded (fun h => h = g) [rankIntegrity] s v ∧ v.adjs = s.adjs
          ∧ (∀ h, v.group h = if h = g then { r with status := .damaged } else s.group h)
          ∧ v.rck = { s.rck with uncorrected := s.rck.uncorrected.bump u.2, rebuildList := v.rck.rebuildList })
          (fun _ => damagedGroup) s)
      ∧ (∀ f ∈ [DupField.groupStatus g, .groupReferrers g],
        OnlyLost f s →
        Performs groupRead (fun v => Degraded (fun h => h = g) [rankIntegrity] s v ∧ v.adjs = s.adjs
          ∧ (∀ h, v.group h = if h = g then { r with status := .damaged } else s.group h)
          ∧ v.rck = lostRck f s.rck v.rck.rebuildList)
          (fun _ => damagedGroup) s)
      ∧ ∀ b, b < r.buckets.length → OnlyDamaged (.bucket g b) .uncorrectable s →
        Performs groupRead (fun v => Degraded (fun h => h = g) [] s v ∧ v.groups = s.groups ∧ v.adjs = s.adjs
          ∧ v.rck = { s.rck with uncorrected := s.rck.uncorrected.bump .bucket, rebuildList := v.rck.rebuildList })
          (fun _ => groupAnswer true ((r.buckets.map some).set b none)) s)

/-- RESOLVE_TEST answers what a request taken at its instant would be answered, with the supplying member; it moves the
test counter of its verdict alone. -/
def Obligations.ResolveTestAnswersByTheResolveRules : Prop :=
  ∀ (tag group hash : Half) (s : State), EngineFree s → WalkerServed s → Clean s →
    let d := resolution s group.toNat hash.toNat
    Performs (.resolveTest tag group hash)
      (fun u => u = { s with rsu := { s.rsu with testCounts := s.rsu.testCounts.bump d.1.verdict } })
      (fun _ => answering tag 0x25 .ok (.resolved d.1 d.2)) s

/-- EVENT_FETCH returns the counted sources of its class in rising rank order and clears them; no other source. -/
def Obligations.EventFetchTakesTheCountedSources : Prop :=
  ∀ (tag : Half) (cls : Byte) (s : State), EngineFree s → WalkerServed s → tableWf {} s.nfu.sources = true →
    (4 ≤ cls.toNat → Answers (.eventFetch tag cls) (refusing tag 0x61 .range) s)
    ∧ (cls.toNat < 4 → ∃ ranks : List Nat, ranks.Pairwise (· < ·)
      ∧ (∀ k, k ∈ ranks ↔ (s.source k).pending = true ∧ (s.source k).masked = false ∧ (s.source k).cls = cls.toNat)
      ∧ Performs (.eventFetch tag cls)
        (fun u => u = { s with nfu := u.nfu } ∧ u.nfu.vectors = s.nfu.vectors
          ∧ ∀ k, u.source k = if k ∈ ranks then { s.source k with pending := false } else s.source k)
        (fun _ => answering tag 0x61 .ok (.ranks ranks)) s)

/-- EVENT_CONFIG gives every source of its run the mask and class, clears pending flags with discard yes, and sends the
vector messages of the classes whose count goes from 0 to at least 1. -/
def Obligations.EventConfigSetsARunOfSources : Prop :=
  ∀ (tag : Half) (first last mask cls discard : Byte) (s : State), EngineFree s → WalkerServed s →
    (71 ≤ first.toNat ∨ 71 ≤ last.toNat ∨ last.toNat < first.toNat ∨ 2 ≤ mask.toNat ∨ 4 ≤ cls.toNat →
      Answers (.eventConfig tag first last mask cls discard) (refusing tag 0x60 .range) s)
    ∧ (first.toNat ≤ last.toNat → last.toNat < 71 → mask.toNat < 2 → cls.toNat < 4 →
      Performs (.eventConfig tag first last mask cls discard)
        (fun u => u = { s with nfu := u.nfu } ∧ u.nfu.vectors = s.nfu.vectors ++ newVectors s u
          ∧ ∀ k, u.source k = if first.toNat ≤ k ∧ k ≤ last.toNat then
              { pending := (s.source k).pending && decide (discard = 0), masked := decide (mask = 0), cls := cls.toNat }
            else s.source k)
        (fun u => answering tag 0x60 .ok (.eventConfig
          ((List.range (last.toNat + 1 - first.toNat)).map (fun i => (u.source (first.toNat + i)).pending))
          [classCount u 0, classCount u 1, classCount u 2, classCount u 3])) s)

/-- AUDIT_SET by the audit state of its instant: 0 is off, more than an hour is stored as an hour with CLAMPED. -/
def Obligations.AuditSetFollowsTheAuditState : Prop :=
  ∀ (tag interval : Half) (s : State), EngineFree s → WalkerServed s →
    let stored := if interval = 0 then none else some (min interval.toNat 3600)
    let after : AuditState :=
      match s.rwk.audit, stored with
      | .off, none => .off
      | .off, some t => .waiting (s.now + 1000000 * t)
      | .waiting _, none => .off
      | .waiting _, some t => .waiting (s.now + 1000000 * t)
      | .pass, none => .off
      | .pass, some _ => .pass
    Performs (.auditSet tag interval)
      (fun u => u = { s with rwk := u.rwk }
        ∧ u.rwk = { s.rwk with
            auditInterval := stored
            audit := after
            auditCursor := if s.rwk.audit ≠ .off ∧ stored = none then none else s.rwk.auditCursor })
      (fun _ => { tag := tag, code := 0x41, status := .ok, clamped := decide (3600 < interval.toNat),
                  stillAsserted := false, result := .audit stored after }) s

/-- EVIDENCE_WRITE stores a line's filter times or a port's guard time within their bounds, CLAMPED when a stored value
differs; running timers, filtered states and evidence are unchanged. -/
def Obligations.EvidenceWriteStoresClampedTimes : Prop :=
  ∀ (tag : Half) (target index : Byte) (assertFilter clearFilter guardTime : Half) (s : State),
    EngineFree s → WalkerServed s →
    let i := .evidenceWrite tag target index assertFilter clearFilter guardTime
    let a := min (assertFilter.toNat / 4 * 4) 1020
    let c := min (max clearFilter.toNat 1) 255
    let q := min guardTime.toNat 255
    (2 ≤ target.toNat ∨ (target = 0 ∧ 16 ≤ index.toNat) ∨ (target = 1 ∧ 128 ≤ index.toNat) →
      Answers i (refusing tag 0x38 .range) s)
    ∧ (target = 0 → index.toNat < 16 → Performs i
      (fun u => u = { s with evu := u.evu } ∧ u.evu = { s.evu with lines := u.evu.lines }
        ∧ ∀ k, u.line k = if k = index.toNat then { s.line k with assertFilter := a, clearFilter := c } else s.line k)
      (fun _ => { tag := tag, code := 0x38, status := .ok, stillAsserted := false, result := .lineSet a c,
                  clamped := decide (a ≠ assertFilter.toNat ∨ c ≠ clearFilter.toNat) }) s)
    ∧ (target = 1 → index.toNat < 128 → Performs i
      (fun u => u = { s with evu := u.evu } ∧ u.evu = { s.evu with ports := u.evu.ports }
        ∧ ∀ k, u.port k = if k = index.toNat then { s.port k with guardTime := q } else s.port k)
      (fun _ => { tag := tag, code := 0x38, status := .ok, stillAsserted := false, result := .portSet q,
                  clamped := decide (q ≠ guardTime.toNat) }) s)

/-- EVIDENCE_READ and MONITOR_READ return a line's filter, a port's entry, holder count and suppression, or a monitor,
each as it stands, and with clear yes clear its counters, or its noted-evidence set and rollover flag, after they are
taken. A monitor record that reads corrected is written back and counted; one that reads uncorrectable damages the
monitor, which is then returned. A monitor that releases a port finishes before the others take the end of its
suppression (log entry 18), in an order that is free where there are several (log entry 8), each as an evidence event
unless every source it ends for has reaction IGNORE (log entry 30); and one that enters DOWN then gives its fault signal
before its probe (log entry 18). -/
def Obligations.EvidenceAndMonitorReadsThenClear : Prop :=
  ∀ (tag : Half) (target index clear monitor : Byte) (s : State), EngineFree s → WalkerServed s →
    let i := .evidenceRead tag target index clear
    let mr := .monitorRead tag monitor clear
    let k := index.toNat
    let n := monitor.toNat
    let m := s.mon n
    let cleared := fun (v u : State) => u = { v with uma := u.uma } ∧ u.uma = { v.uma with monitors := u.uma.monitors }
      ∧ ∀ j, u.mon j = if j = n ∧ clear ≠ 0 then { v.mon j with noted := {}, rollover := false } else v.mon j
    (Clean s →
      (2 ≤ target.toNat ∨ (target = 0 ∧ 16 ≤ k) ∨ (target = 1 ∧ 128 ≤ k) → Answers i (refusing tag 0x39 .range) s)
      ∧ (target = 0 → k < 16 → Performs i
        (fun u => u = { s with evu := u.evu } ∧ u.evu = { s.evu with lines := u.evu.lines }
          ∧ ∀ j, u.line j = if j = k ∧ clear ≠ 0 then { s.line j with shortPulses := 0, assertions := 0 } else s.line j)
        (fun _ => answering tag 0x39 .ok (.line (s.line k) s.now
          ((List.range 32).filter (fun n => decide ((s.mon n).active.los = some k))))) s)
      ∧ (target = 1 → k < 128 → Performs i
        (fun u => u = { s with evu := u.evu } ∧ u.evu = { s.evu with ports := u.evu.ports }
          ∧ ∀ j, u.port j = if j = k ∧ clear ≠ 0 then { s.port j with errored := 0, suppressed := 0 } else s.port j)
        (fun _ => answering tag 0x39 .ok (.port (s.port k) s.now
          ((List.range 32).filter (fun n => decide ((s.mon n).active.port = some k))))) s)
      ∧ (32 ≤ n → Answers mr (refusing tag 0x31 .range) s)
      ∧ (n < 32 → Performs mr (cleared s) (fun _ => answering tag 0x31 .ok (.monitor m s.now)) s))
    ∧ (n < 32 → OnlyDamaged (.monitor n) .correctable s →
      Performs mr (cleared (corrected .monitor s)) (fun _ => answering tag 0x31 .ok (.monitor m s.now)) s)
    ∧ (n < 32 → OnlyDamaged (.monitor n) .uncorrectable s →
      let v := { s with rck := { s.rck with damage := [], uncorrected := s.rck.uncorrected.bump .monitor } }
      Performs mr
        (OneEvent (fun v u => ∃ mid w,
          MonitorActed n (damagedMonitor s.now m) (holds m) none [rankIntegrity, rankMonitor n] v mid
            ∧ OthersTake s n (holds m) mid w ∧ cleared w u) v)
        (fun _ => answering tag 0x31 .ok (.monitor (damagedMonitor s.now m) s.now)) s)

/-! ### Table commands -/

/-- ADJ_WRITE and ADJ_DELETE, taken with engine and table writer free or in execution with the table writer granted:
their checks in order; a write to an unreferenced adjacency, or to a referenced VALID one on its recorded uplink, stores
the record and keeps its count, another uplink is refused with IN_USE; an unreferenced VALID or DAMAGED adjacency is
deleted to its reset record. No group is published or settled by either. -/
def Obligations.AdjacencyWriteAndDelete : Prop :=
  ∀ (tag adj : Half) (port : Byte) (rewrite : Half) (uplink : Byte) (s : State),
    WalkerServed s → Clean s → s.rck.tableFault = false →
    let i := .adjWrite tag adj port rewrite uplink
    let d := .adjDelete tag adj
    let r := s.adj adj.toNat
    (TableStarted tag (.adjWrite adj port rewrite uplink) s →
      (8192 ≤ adj.toNat ∨ 128 ≤ port.toNat ∨ uplinkNamed uplink = false → TableRefused i tag 0x10 .range s)
      ∧ (adj.toNat < 8192 → port.toNat < 128 → uplinkNamed uplink = true →
        (r.refs ≠ 0 → r.status = .valid → r.uplink ≠ uplinkOf uplink → TableRefused i tag 0x10 .inUse s)
        ∧ (r.refs = 0 ∨ (r.status = .valid ∧ r.uplink = uplinkOf uplink) →
          ∃ t, exec i s = .next t ∧ TableAnswered (answering tag 0x10 .ok .empty) [] s t
            ∧ t.groups = s.groups ∧ t.dpx = s.dpx ∧ t.rck = s.rck ∧ t.twr.depleted = s.twr.depleted
            ∧ ∀ a, t.adj a = if a = adj.toNat then
                { status := .valid, port := port.toNat, rewrite := rewrite.toNat, uplink := uplinkOf uplink,
                  refs := r.refs }
              else s.adj a)))
    ∧ (TableStarted tag (.adjDelete adj) s →
      (8192 ≤ adj.toNat → TableRefused d tag 0x11 .range s)
      ∧ (adj.toNat < 8192 → r.status = .invalid → TableRefused d tag 0x11 .notValid s)
      ∧ (adj.toNat < 8192 → r.status ≠ .invalid → r.refs ≠ 0 → TableRefused d tag 0x11 .inUse s)
      ∧ (adj.toNat < 8192 → r.status ≠ .invalid → r.refs = 0 →
        ∃ t, exec d s = .next t ∧ TableAnswered (answering tag 0x11 .ok .empty) [] s t
          ∧ t.groups = s.groups ∧ t.dpx = s.dpx ∧ t.rck = s.rck ∧ t.twr.depleted = s.twr.depleted
          ∧ ∀ a, t.adj a = if a = adj.toNat then
              { status := .invalid, port := 0, rewrite := 0, uplink := none, refs := 0 } else s.adj a))

/-- ADJ_WRITE to a referenced DAMAGED adjacency that its first referencing group does not account for, or while the
index awaits rebuild, is refused; with the uplink the group's lists call for it becomes VALID with its count kept and
its INSTALLED groups join the rebuild list (R6), the index awaits rebuild and INTEGRITY is raised (R153's last
paragraph). -/
def Obligations.AdjWriteRepairsADamagedAdjacency : Prop :=
  ∀ (tag adj : Half) (port : Byte) (rewrite : Half) (uplink : Byte) (s : State),
    TableStarted tag (.adjWrite adj port rewrite uplink) s → WalkerServed s → Clean s → s.rck.tableFault = false →
    adj.toNat < 8192 → port.toNat < 128 → uplinkNamed uplink = true →
    (s.adj adj.toNat).status = .damaged → (s.adj adj.toNat).refs ≠ 0 →
    let i := .adjWrite tag adj port rewrite uplink
    let refers := fun (g : Nat) => (s.group g).status ≠ .notInstalled ∧ ∃ m ∈ (s.group g).members, m.adj = adj.toNat
    (s.rck.dependencyPending = true → TableRefused i tag 0x10 .damaged s)
    ∧ (s.rck.dependencyPending = false → ∀ g, g < 4096 → refers g → (∀ h, h < g → ¬ refers h) →
      let S := (List.range 32).filter (fun u => decide (g ∈ s.depList u))
      let T := (List.range 32).filter (fun u => (s.group g).members.any (fun m =>
        decide (m.adj ≠ adj.toNat) && decide ((s.adj m.adj).status = .valid) && decide ((s.adj m.adj).uplink = some u)))
      let unaccounted := S.filter (fun u => decide (u ∉ T))
      let agrees := match uplinkOf uplink with
        | none => unaccounted = []
        | some u => unaccounted = [u] ∨ (unaccounted = [] ∧ u ∈ T)
      (¬ agrees → TableRefused i tag 0x10 .inUse s)
      ∧ (agrees → ∃ t, exec i s = .next t
        ∧ t.adj adj.toNat = { status := .valid, port := port.toNat, rewrite := rewrite.toNat, uplink := uplinkOf uplink,
                              refs := (s.adj adj.toNat).refs }
        ∧ (∀ a, a ≠ adj.toNat → t.adj a = s.adj a)
        ∧ t.groups = s.groups ∧ t.dpx = s.dpx ∧ t.uma = s.uma ∧ t.rck.dependencyPending = true
        ∧ (∀ x, x ∈ t.rck.rebuildList ↔ x ∈ s.rck.rebuildList ∨ joinsFor s adj.toNat x)
        ∧ (∀ k, t.source k = if k = rankIntegrity ∨ k ∈ completionRaise s.cme then
            { s.source k with pending := true } else s.source k)
        ∧ t.cme = completed (answering tag 0x10 .ok .empty) s.cme))

/-- GROUP_WRITE: refused with the first failing check and no change, or the group dealt from its member list, settled,
INSTALLED and published, its answer carrying the revision, the live count and CLAMPED for a weight of 0. -/
def Obligations.GroupWriteInstallsTheDealtAndSettledGroup : Prop :=
  ∀ (tag : Half) (a : GroupArgs) (s : State), TableStarted tag (.groupWrite a) s → WalkerServed s → Clean s →
    s.rck.tableFault = false → a.members.length ≤ 59 → (s.group a.group.toNat).backup ≠ some a.group.toNat →
    let i := .groupWrite tag a
    let g := a.group.toNat
    let old := s.group g
    match groupWriteRefusal s a with
    | some st => TableRefused i tag 0x20 st s
    | none => ∃ t B mode policy,
      bucketClassOf a.bucketClass = some B ∧ stripeOf a.stripe = some mode ∧ policyOf a.policy = some policy
      ∧ (let counts := homeCounts (a.members.map (fun m => max m.weight.toNat 1)) B.size
        let dealt : Group :=
          { status := .installed, bucketCount := B, stripe := mode, offset := a.offset.toNat,
            backup := if a.backup = 0xFFFF then none else some a.backup.toNat, policy := policy,
            notify := decide (a.notify ≠ 0), revision := (old.revision + 1) % 65536, referrers := old.referrers,
            members := a.members.zipWith (fun (m : MemberArg) (c : Nat) =>
              ({ adj := m.adj.toNat, weight := max m.weight.toNat 1, enabled := decide (m.enabled ≠ 0),
                 withdrawn := false, homeCount := c } : Member)) counts,
            buckets := (placement mode counts).map (fun h => { home := h, current := h }) }
        exec i s = .next t
        ∧ t.group g = settled s dealt
        ∧ DepletedAfter s t g (settled s dealt).liveCount
        ∧ (∀ x, x ∈ t.rck.rebuildList ↔ x ∈ s.rck.rebuildList ∧ x ≠ g)
        ∧ TableAnswered
          { tag := tag, code := 0x20, status := .ok, clamped := a.members.any (fun m => decide (m.weight = 0)),
            stillAsserted := false,
            result := .groupWritten ((old.revision + 1) % 65536) (settled s dealt).liveCount }
          (depletionEvents s g (settled s dealt).liveCount dealt.notify) s t)

/-- An accepted GROUP_WRITE moves the group's references, referrer and list entries to those of its new content; no
other record changes otherwise. -/
def Obligations.GroupWriteMovesCountsAndLists : Prop :=
  ∀ (tag : Half) (a : GroupArgs) (s : State), TableStarted tag (.groupWrite a) s → WalkerServed s → Clean s →
    s.rck.tableFault = false → a.members.length ≤ 59 → Canonical s → ReferencesExact s →
    groupWriteRefusal s a = none →
    let g := a.group.toNat
    let old := s.group g
    let oldAdjs := if old.status = .notInstalled then [] else old.members.map (·.adj)
    let newAdjs := a.members.map (fun m => m.adj.toNat)
    let oldBackup := if old.status = .notInstalled then none else old.backup
    let newBackup := if a.backup = 0xFFFF then none else some a.backup.toNat
    ∃ t, exec (.groupWrite tag a) s = .next t
      ∧ (∀ x, t.adj x = { s.adj x with refs := (t.adj x).refs }
        ∧ (t.adj x).refs + oldAdjs.count x = (s.adj x).refs + newAdjs.count x)
      ∧ (∀ x, x ≠ g → t.group x = { s.group x with referrers := (t.group x).referrers }
        ∧ (t.group x).referrers + (if oldBackup = some x then 1 else 0)
          = (s.group x).referrers + (if newBackup = some x then 1 else 0))
      ∧ (∀ u, u < 32 → ∀ x, x ∈ t.depList u ↔
          if x = g then ∃ y ∈ newAdjs, (s.adj y).uplink = some u else x ∈ s.depList u)
      ∧ (PoolExact s → PoolExact t)

/-- GROUP_DELETE: the checks in order; then the references and the referrer released, the group off every list, the
depleted set and the rebuild list, its record at reset but for the referrer count, its revision advanced. -/
def Obligations.GroupDeleteReleasesEverything : Prop :=
  ∀ (tag group : Half) (s : State), TableStarted tag (.groupDelete group) s → WalkerServed s → Clean s →
    s.rck.tableFault = false → Canonical s → ReferencesExact s →
    let i := .groupDelete tag group
    let g := group.toNat
    let old := s.group g
    (4096 ≤ g → TableRefused i tag 0x21 .range s)
    ∧ (g < 4096 → old.status = .notInstalled → TableRefused i tag 0x21 .notInstalled s)
    ∧ (g < 4096 → old.status ≠ .notInstalled → old.referrers ≠ 0 → TableRefused i tag 0x21 .inUse s)
    ∧ (g < 4096 → old.status ≠ .notInstalled → old.referrers = 0 → s.rck.dependencyPending = true →
      TableRefused i tag 0x21 .damaged s)
    ∧ (g < 4096 → old.status ≠ .notInstalled → old.referrers = 0 → s.rck.dependencyPending = false →
      ∃ t, exec i s = .next t ∧ TableAnswered (answering tag 0x21 .ok (.revision ((old.revision + 1) % 65536))) [] s t
        ∧ t.group g = { revision := (old.revision + 1) % 65536 }
        ∧ (∀ x, x ≠ g → t.group x = { s.group x with
            referrers := (s.group x).referrers - if old.backup = some x then 1 else 0 })
        ∧ (∀ x, t.adj x = { s.adj x with refs := (s.adj x).refs - (old.members.map (·.adj)).count x })
        ∧ (∀ u, u < 32 → ∀ x, x ∈ t.depList u ↔ x ∈ s.depList u ∧ x ≠ g)
        ∧ (∀ x, x ∈ t.twr.depleted ↔ x ∈ s.twr.depleted ∧ x ≠ g)
        ∧ (∀ x, x ∈ t.rck.rebuildList ↔ x ∈ s.rck.rebuildList ∧ x ≠ g)
        ∧ (PoolExact s → PoolExact t))

/-- MEMBER_SET: the checks in order; a flag that already holds its value changes nothing; otherwise the flag is
stored, the group settled and published. A group whose status is found lost becomes DAMAGED, table fault is set and
the command is refused with DAMAGED (R157). -/
def Obligations.MemberSetStoresSettlesAndPublishes : Prop :=
  ∀ (tag group : Half) (index enabled : Byte) (s : State),
    TableStarted tag (.memberSet group index enabled) s → WalkerServed s → s.rck.tableFault = false →
    let i := .memberSet tag group index enabled
    let g := group.toNat
    let r := s.group g
    (4096 ≤ g → TableRefused i tag 0x23 .range s)
    ∧ (g < 4096 → Clean s →
      (r.status = .notInstalled → TableRefused i tag 0x23 .notInstalled s)
      ∧ (r.status = .damaged → TableRefused i tag 0x23 .damaged s)
      ∧ (r.status = .installed → r.members.length ≤ index.toNat → TableRefused i tag 0x23 .range s)
      ∧ (r.status = .installed → ∀ m, r.members[index.toNat]? = some m →
        (m.enabled = decide (enabled ≠ 0) →
          ∃ t, exec i s = .next t ∧ TableAnswered (answering tag 0x23 .ok (.revision r.revision)) [] s t
            ∧ t.groups = s.groups ∧ t.adjs = s.adjs ∧ t.dpx = s.dpx ∧ t.rck = s.rck
            ∧ t.twr.depleted = s.twr.depleted)
        ∧ (m.enabled ≠ decide (enabled ≠ 0) →
          let r' := settled s { r with
            members := r.members.set index.toNat { m with enabled := decide (enabled ≠ 0) }
            revision := (r.revision + 1) % 65536 }
          ∃ t, exec i s = .next t
            ∧ TableAnswered (answering tag 0x23 .ok (.revision ((r.revision + 1) % 65536)))
              (depletionEvents s g r'.liveCount r.notify) s t
            ∧ (∀ x, t.group x = if x = g then r' else s.group x)
            ∧ t.adjs = s.adjs ∧ t.dpx = s.dpx ∧ t.rck = s.rck ∧ DepletedAfter s t g r'.liveCount)))
    ∧ (g < 4096 → OnlyLost (.groupStatus g) s →
      ∃ t, exec i s = .next t ∧ t.cme = completed (refusing tag 0x23 .damaged) s.cme
        ∧ (∀ x, t.group x = if x = g then { r with status := .damaged } else s.group x)
        ∧ t.adjs = s.adjs ∧ t.dpx = s.dpx ∧ t.twr.depleted = s.twr.depleted ∧ t.uma = s.uma
        ∧ t.rck = lostRck (.groupStatus g) s.rck t.rck.rebuildList
        ∧ (∀ x, x ∈ t.rck.rebuildList ↔ x ∈ s.rck.rebuildList ∨ x = g)
        ∧ ∀ k, t.source k = if k = rankIntegrity ∨ k ∈ completionRaise s.cme then
            { s.source k with pending := true } else s.source k)

/-! ### The forwarding-side link -/

/-- The link's training: signal takes DOWN to TRAINING, symbol lock starts the ready sequence in TRAINING, loss of
lock takes TRAINING or ACTIVE to DOWN and leaves no answer, message or credit. That SYMBOL_LOCK outside TRAINING, and
any event that the link's state does not admit, changes nothing is the model's choice (log entry 17), and so is that
no signal level is held, symbol lock starts the ready sequence at once and the fall clears both (log entry 21). -/
def Obligations.LinkTrainsAndFalls : Prop :=
  ∀ s : State, WalkerServed s →
    (s.fsl.link ≠ .down → exec .receiveSignalPresent s = .next s)
    ∧ (s.fsl.link = .down → ∃ t, exec .receiveSignalPresent s = .next t
      ∧ t = { s with fsl := { s.fsl with link := .training }, nfu := t.nfu } ∧ Raised [rankLink] s t)
    ∧ (s.fsl.link ≠ .training → exec .symbolLock s = .next s ∧ exec .trainingComplete s = .next s)
    ∧ (s.fsl.symbolLock = false → exec .trainingComplete s = .next s)
    ∧ (s.fsl.link = .training →
      exec .symbolLock s = .next { s with fsl := { s.fsl with symbolLock := true, sendingReady := true } })
    ∧ (s.fsl.link = .down → exec .lossOfLock s = .next s)
    ∧ (s.fsl.link = .training → ∃ t, exec .lossOfLock s = .next t
      ∧ t = { s with fsl := { s.fsl with link := .down, symbolLock := false, sendingReady := false }, nfu := t.nfu }
      ∧ Raised [rankLink] s t)
    ∧ (s.fsl.link = .active → ∃ t, exec .lossOfLock s = .next t
      ∧ t = { s with
          fsl := { s.fsl with link := .down, symbolLock := false, sendingReady := false, transmit := [], credits := 0 }
          rsu := { s.rsu with answers := [] }
          nfu := t.nfu }
      ∧ Raised [rankLink] s t)

/-- Entry to ACTIVE: every port entry UNKNOWN, the change from DOWN taken by each bound monitor that sees it, those
that see it fixed before any reacts (log entry 9) and reacting in an order that is free (log entry 8); then the grant of
64, the fault signal of each held port, the probe of each monitor whose send timer runs, in this order, and LINK raised.
Whatever record check finds on the way, no release is given, and a port's assert stands on the transmit list exactly when
it is held: what the monitors would give before the grant is not kept (log entry 35). The ready sequence ends here (log
entry 21). -/
def Obligations.TrainingCompleteOpensTheLink : Prop :=
  ∀ s : State, s.fsl.link = .training → s.fsl.symbolLock = true → s.fsl.transmit = [] →
    (∃ t, exec .trainingComplete s = .next t ∧ t.fsl.link = .active ∧ t.fsl.transmit.head? = some (.credit 64)
      ∧ ∀ p, TxMsg.faultSignal p false ∉ t.fsl.transmit
        ∧ (.faultSignal p true ∈ t.fsl.transmit ↔ ∃ e ∈ t.evu.ports, e.1 = p ∧ 0 < e.2.holders))
    ∧ (Clean s → Canonical s → WalkerServed s →
    let seeing := (List.range 32).filter (fun n =>
      decide ((s.mon n).state ≠ .disabled) && boundDown s (s.mon n) && !portWithheld s n)
    ∃ u v t, exec .trainingComplete s = .next t
      ∧ u = { s with evu := u.evu }
      ∧ u.evu = { s.evu with ports := u.evu.ports } ∧ (∀ p, u.port p = { s.port p with entry := .unknown })
      ∧ EachTakes seeing (fun n => Checked n (portTaken s.now false (s.mon n)) []) u v
      ∧ (let held := (v.evu.ports.filter (fun e => decide (0 < e.2.holders))).map (·.1)
        let senders := (List.range 32).filter (fun n => (v.mon n).send.isSome && probing (v.mon n))
        t = { v with fsl := t.fsl, uma := t.uma, nfu := t.nfu }
        ∧ t.fsl = { s.fsl with
            link := .active, sendingReady := false, consecutiveBad := 0, credits := 0, lastServed := .answers
            transmit := (held.map (fun p => TxMsg.faultSignal p true) ++ senders.map (fun n =>
              probeOf n ((v.mon n).active.port.getD 0)
                (match (v.mon n).state with
                  | .qualify => .init
                  | .up => .up
                  | .suspect => .up
                  | .down => .down
                  | .disabled => .down) (v.mon n))).foldl (fun l m => giveTo m l) [.credit 64] }
        ∧ t.uma = { v.uma with monitors := t.uma.monitors }
        ∧ ∀ n, t.mon n = if n ∈ senders then
            { v.mon n with send := some (s.now + 100 * (v.mon n).cfg.txInterval) } else v.mon n)
      ∧ (∀ k, t.source k = if k = rankLink then { v.source k with pending := true } else v.source k)
      ∧ t.nfu.vectors = s.nfu.vectors ++ newVectors s t
      ∧ (seeing = [] → Raised [rankLink] s t))

/-- RESOLVE_REQ: taken against a credit, its derived answer joins the tail of the answer queue and its verdict and the
uplinks passed over are counted; with no credit it is an overrun; a link that is not ACTIVE takes nothing. -/
def Obligations.ResolveReqQueuesTheDerivedAnswer : Prop :=
  ∀ (tag : Byte) (group hash : Half) (s : State), WalkerServed s → Clean s →
    let d := resolution s group.toNat hash.toNat
    (s.fsl.link ≠ .active → exec (.resolveReq tag group hash) s = .next s)
    ∧ (s.fsl.link = .active → s.fsl.credits = 0 → exec (.resolveReq tag group hash) s
        = .next { s with fsl := { s.fsl with overruns := min (s.fsl.overruns + 1) 4294967295 } })
    ∧ (s.fsl.link = .active → s.fsl.credits ≠ 0 → ∃ t, exec (.resolveReq tag group hash) s = .next t
      ∧ t = { s with fsl := { s.fsl with credits := s.fsl.credits - 1, consecutiveBad := 0 }, rsu := t.rsu }
      ∧ t.rsu = { s.rsu with
          answers := s.rsu.answers ++ [{ tag := tag, content := d.1 }]
          answerCounts := s.rsu.answerCounts.bump d.1.verdict
          substitutions := t.rsu.substitutions }
      ∧ ∀ u, t.substitution u = if requestPasses s group.toNat hash.toNat u = true then
          min (s.substitution u + 1) 4294967295 else s.substitution u)

/-- BAD_MESSAGE: discarded and counted, one under the request marker spending a credit that a CREDIT message returns;
the eighth in succession takes the link to DOWN with the effects of 11.1 (R180, R182), where `symbolLock` and
`sendingReady` clear by the model's choice (log entry 21); under the request marker with no credit it is an overrun.
-/
def Obligations.BadMessageIsDiscardedAndCounted : Prop :=
  ∀ (marker : Marker) (frame : List Byte) (s : State), WalkerServed s →
    let i := .badMessage marker frame
    (s.fsl.link ≠ .active → exec i s = .next s)
    ∧ (s.fsl.link = .active → marker = .request → s.fsl.credits = 0 →
      exec i s = .next { s with fsl := { s.fsl with overruns := min (s.fsl.overruns + 1) 4294967295 } })
    ∧ (s.fsl.link = .active → (marker = .general ∨ s.fsl.credits ≠ 0) →
      let counted := { s.fsl with
        discards := min (s.fsl.discards + 1) 4294967295
        consecutiveBad := s.fsl.consecutiveBad + 1 }
      (s.fsl.consecutiveBad + 1 < 8 → exec i s = .next { s with
        fsl := match marker with
          | .general => counted
          | .request => { counted with credits := s.fsl.credits - 1, transmit := giveTo (.credit 1) s.fsl.transmit } })
      ∧ (8 ≤ s.fsl.consecutiveBad + 1 → ∃ t, exec i s = .next t
        ∧ t = { s with
            fsl := { counted with
              link := .down, symbolLock := false, sendingReady := false, transmit := [], credits := 0 }
            rsu := { s.rsu with answers := [] }
            nfu := t.nfu }
        ∧ Raised [rankLink] s t))

/-- PORT_NOTICE: a good message; a port or kind that names none is counted; UP and DOWN set the entry and ERRORED
counts, and each bound monitor takes it, in an order that is free where there are several (log entry 8), or the port
counts it once as withheld; the monitors it is withheld from are those of its instant, before any reacts (log entry
9). A monitor that enters DOWN gives its fault signal before its probe (log entry 18). -/
def Obligations.PortNoticeReachesTheBoundMonitor : Prop :=
  ∀ (port kind : Byte) (s : State), WalkerServed s → Clean s →
    let i := .portNotice port kind
    let p := port.toNat
    let good := { s with fsl := { s.fsl with consecutiveBad := 0 } }
    (s.fsl.link ≠ .active → exec i s = .next s)
    ∧ (s.fsl.link = .active → (128 ≤ p ∨ kind.toNat ∉ [1, 2, 3]) →
      exec i s = .next { good with evu := { s.evu with badNotices := min (s.evu.badNotices + 1) 4294967295 } })
    ∧ (s.fsl.link = .active → p < 128 → (kind = 1 ∨ kind = 2) →
      let down := decide (kind = 2)
      let u := modPort p (fun q => { q with entry := if kind = 2 then .down else .up }) good
      (onPort s p = [] → exec i s = .next u)
      ∧ ∃ t, exec i s = .next t
        ∧ NoticeTaken p (fun n => Checked n (portTaken s.now down (s.mon n)) (notedRaise n (notesPort down (s.mon n)))) u t)
    ∧ (s.fsl.link = .active → p < 128 → kind = 3 →
      let u := modPort p (fun q => { q with errored := min (q.errored + 1) 65535 }) good
      (onPort s p = [] → exec i s = .next u)
      ∧ ∃ t, exec i s = .next t
        ∧ NoticeTaken p (fun n a b =>
          if (s.mon n).state = .up ∨ (s.mon n).state = .suspect then
            Checked n { s.mon n with confidence := min ((s.mon n).confidence + (s.mon n).cfg.errorWeight) 255 } [] a b
          else b = a) u t)

/-- PROBE_ARRIVAL: a link that is not ACTIVE takes nothing (log entry 17); malformed, unselected and unaccepted
arrivals are stray; an accepted one records the peer, and counts towards qualification, lowers the counter and applies
PEER_DOWN, or changes nothing more, by the monitor's state. A monitor that enters DOWN gives its fault signal before
its probe (log entry 18). -/
def Obligations.ProbeArrivalActsByTheMonitorsState : Prop :=
  (∀ (port : Byte) (peer : BitVec 2) (mine yours tx : Half) (s : State), s.fsl.link ≠ .active →
    exec (.probeArrival port peer mine yours tx) s = .next s)
  ∧ ∀ (port : Byte) (peer : BitVec 2) (mine yours tx : Half) (s : State), WalkerServed s → Clean s →
    s.fsl.link = .active →
    let i := .probeArrival port peer mine yours tx
    let good := { s with fsl := { s.fsl with consecutiveBad := 0 } }
    let agrees := fun (n : Nat) =>
      (List.range 16).all (fun k => !(s.mon n).active.matchMask.getLsbD k
        || decide (mine.getLsbD k = (s.mon n).active.remoteDisc.getLsbD k))
    let malformed := 128 ≤ port.toNat ∨ mine = 0 ∨ peer = 3
    let selected := (List.range 32).find? (fun n =>
      if yours = 0 then (s.mon n).active.session && decide ((s.mon n).active.port = some port.toNat) && agrees n
      else decide ((s.mon n).active.localDisc = yours))
    let accepted := fun (n : Nat) => (s.mon n).state ≠ .disabled ∧ (s.mon n).active.session = true ∧ agrees n = true
      ∧ (s.mon n).active.port = some port.toNat
    ((malformed ∨ selected = none ∨ ∃ n, selected = some n ∧ ¬ accepted n) →
      exec i s = .next { good with uma := { s.uma with strays := min (s.uma.strays + 1) 4294967295 } })
    ∧ (¬ malformed → ∀ n, selected = some n → accepted n → ∃ t, exec i s = .next t
      ∧ (let down := peer = 0
        let m := { s.mon n with
          learned := mine
          peerState := if peer = 0 then .down else if peer = 1 then .init else .up
          peerTx := some (min (max tx.toNat 10) 10000) }
        let restarted := { m with arrival := some (s.now + periodOf m) }
        let count := min (m.qualCount + 1) 15
        let lowered := { restarted with confidence := m.confidence - m.cfg.recoveryStep }
        (m.state = .down → MonitorMoved n m [] good t)
        ∧ (m.state = .qualify → down → Checked n { restarted with qualCount := 0 } [] good t)
        ∧ (m.state = .qualify → ¬ down → count < m.cfg.qualifyCount →
          Checked n { restarted with qualCount := count } [] good t)
        ∧ (m.state = .qualify → ¬ down → m.cfg.qualifyCount ≤ count → downCause false m = none →
          m.confidence < m.cfg.suspectAt → m.cfg.suspectAt < m.cfg.downAt →
          MonitorActed n (qualified s.now { restarted with qualCount := count }) none (some .up) [rankMonitor n] good t)
        ∧ (m.state = .up ∨ m.state = .suspect → ¬ down → Checked n { lowered with peerHold := false } [] good t)
        ∧ (m.state = .up ∨ m.state = .suspect → down →
          match m.cfg.peerReaction with
          | .ignore => Checked n lowered [] good t
          | .notify => Checked n { lowered with noted := { m.noted with peer := true } } [rankMonitor n] good t
          | .suspect => Checked n { lowered with peerHold := true } [] good t
          | .down => ∃ why, downCause true lowered = some why ∧ DownEntered n why lowered good t)))

/-- The transmitter sends the head answer or the head of the transmit list, alternating while both wait; a message sent
returns the credits it carries. A send whose source has nothing, or is not the one to be served, changes nothing by the
model's choice (log entry 17), and `out.linkSent` is the model's record of what was sent (log entry 20), each message
under the general marker (log entry 38). -/
def Obligations.TransmitterAlternatesAndReturnsCredits : Prop :=
  ∀ s : State, s.fsl.link = .active →
    (s.rsu.answers = [] ∨ (s.fsl.transmit ≠ [] ∧ s.fsl.lastServed = .answers) → exec .resolveAns s = .next s)
    ∧ (s.fsl.transmit = [] ∨ (s.rsu.answers ≠ [] ∧ s.fsl.lastServed = .list) → exec .transmitListSend s = .next s)
    ∧ (∀ a rest, s.rsu.answers = a :: rest → (s.fsl.transmit = [] ∨ s.fsl.lastServed = .list) →
      exec .resolveAns s = .next { s with
        fsl := { s.fsl with credits := s.fsl.credits + 1, lastServed := .answers }
        rsu := { s.rsu with answers := rest }
        out := { s.out with linkSent := some (.general, (answerFrame a).2) } })
    ∧ (∀ m rest, s.fsl.transmit = m :: rest → (s.rsu.answers = [] ∨ s.fsl.lastServed = .answers) →
      exec .transmitListSend s = .next { s with
        fsl := { s.fsl with
          credits := s.fsl.credits + (match m with | .credit c => c | .probeSend _ => 0 | .faultSignal _ _ => 0)
          transmit := rest
          lastServed := .list }
        out := { s.out with linkSent := some (.general, (messageFrame m).2) } })

/-! ### Loss-of-light lines -/

/-- A raw change moves the line's filter as the rows of its table give; with an assert filter of 0 us a raw assertion
asserts the filtered state at once, and each monitor on the line takes it, in an order that is free where there are
several (log entry 8), or its port counts it as withheld; the monitors it is withheld from are those of its instant,
before any reacts (log entry 9). A level that does not change does nothing (log entry 17); a combination of level,
filtered state and timer that no run reaches stores the level alone (log entry 33); a monitor that enters DOWN gives
its fault signal before its probe (log entry 18). -/
def Obligations.LosRawChangeMovesTheFilter : Prop :=
  ∀ (line : Fin 16) (v : Bool) (s : State), WalkerServed s → Clean s →
    let i := .losRawChange line v
    let x := s.line line.val
    (x.raw = v → exec i s = .next s)
    ∧ (x.raw ≠ v →
      match x.filtered, x.timer, v with
      | false, .stopped, true =>
        (x.assertFilter ≠ 0 → exec i s = .next (setLine line.val { x with
            raw := true, timer := .towardAssert (s.now + x.assertFilter) } s))
        ∧ (x.assertFilter = 0 →
          let u := setLine line.val { x with raw := true, filtered := true, assertions := min (x.assertions + 1) 65535 } s
          (onLine s line.val = [] → exec i s = .next u)
          ∧ ∃ t, exec i s = .next t ∧ FilteredTaken line.val true u t)
      | false, .towardAssert _, false => exec i s = .next (setLine line.val { x with
          raw := false, timer := .stopped, shortPulses := min (x.shortPulses + 1) 65535 } s)
      | true, .stopped, false => exec i s = .next (setLine line.val { x with
          raw := false, timer := .towardClear (s.now + 1000 * x.clearFilter) } s)
      | true, .towardClear _, true => exec i s = .next (setLine line.val { x with raw := true, timer := .stopped } s)
      | _, _, _ => exec i s = .next (setLine line.val { x with raw := v } s))

/-- A filter timer's expiry makes the filtered state what the timer ran towards; each monitor on the line takes the
change, in an order that is free where there are several (log entry 8), or its port counts it as withheld;
the monitors it is withheld from are those of its instant, before any reacts (log entry 9). The expiry of a
stopped timer changes nothing (log entry 17), a running one's takes place at the later of now and its instant (log
entry 3), and a monitor that enters DOWN gives its fault signal before its probe (log entry 18). -/
def Obligations.LosFilterExpiryDeliversTheChange : Prop :=
  ∀ (line : Fin 16) (s : State), WalkerServed s → Clean s →
    let i := .losFilterTimerExpiry line
    let x := s.line line.val
    (x.timer = .stopped → exec i s = .next s)
    ∧ ∀ e v, (x.timer = .towardAssert e ∧ v = true ∨ x.timer = .towardClear e ∧ v = false) →
      let u := { setLine line.val { x with
          filtered := v
          timer := .stopped
          assertions := if v then min (x.assertions + 1) 65535 else x.assertions } s with now := max s.now e }
      (onLine s line.val = [] → exec i s = .next u)
      ∧ ∃ t, exec i s = .next t ∧ FilteredTaken line.val v u t

/-! ### Timers -/

/-- A qualify timer's expiry, at the later of now and its instant (log entry 3), completes the qualification of a
monitor without a session, which enters UP, or SUSPECT with a source at SUSPECT level; a stopped timer's changes
nothing (log entry 17). -/
def Obligations.QualifyExpiryEntersService : Prop :=
  ∀ (monitor : Fin 32) (s : State), WalkerServed s → Clean s →
    let n := monitor.val
    ((s.mon n).qualify = none → exec (.qualifyTimerExpiry monitor) s = .next s)
    ∧ ∀ e, (s.mon n).qualify = some e → (s.mon n).state = .qualify → (s.mon n).active.session = false →
      ∃ t, exec (.qualifyTimerExpiry monitor) s = .next t
        ∧ MonitorMoved n (qualified (max s.now e) (s.mon n)) [rankMonitor n] { s with now := max s.now e } t

/-- A hold-down's expiry, at the later of now and its instant (log entry 3): held while a source is at DOWN level;
otherwise the monitor releases the port it holds and enters QUALIFY under its pending binding, or its active one, with
the evidence that its line and port present, an activation being noted as at any instant (log entry 29), or the
activity held under suppression where the binding is not new (log entry 28), going on to DOWN or to service at once
where R73 says so; where its release takes its port to CLEAR, the others bound to it take the end of its suppression,
in an order that is free where there are several (log entry 8), each as an evidence event unless every source it ends
for has reaction IGNORE (log entry 30). The expiry of a stopped or held timer changes nothing (log entry 17). A
monitor that enters DOWN gives its fault signal before its probe, and one that releases a port finishes before the
others take the end of its suppression (log entry 18). -/
def Obligations.HoldDownExpiryHoldsOrQualifies : Prop :=
  ∀ (monitor : Fin 32) (s : State), WalkerServed s → Clean s →
    let i := .holdDownExpiry monitor
    let n := monitor.val
    let m := s.mon n
    (m.hold = .stopped ∨ m.hold = .held → exec i s = .next s)
    ∧ ∀ e, m.hold = .running e → m.state = .down →
      let u := { s with now := max s.now e }
      (downCause false m ≠ none → ∃ t, exec i s = .next t ∧ MonitorMoved n { m with hold := .held } [] u t)
      ∧ (downCause false m = none →
        let b := m.pending.getD m.active
        let latch := if releaseClears u (holds m) && m.cfg.echoLos then
            m.latch || (decide (m.cfg.latchMode = .latch) && boundFiltered s m) else m.latch
        let m1 := rebind s b { m with
          latch := latch, hold := .stopped, state := .qualify, reason := .holdExpired, peerTx := none }
        let newPort := decide (m.active.port ≠ b.port)
        let m2 := (entryEvidence s (suppressesAfter u none (holds m) m1)
          (newPort || decide (m.active.los ≠ b.los)) newPort m1).1
        ∃ t, exec i s = .next t
          ∧ OneEvent (fun u t => ∃ mid, EntersQualify n (qualifying u.now m2) (holds m) (some .init) [rankMonitor n] u mid
            ∧ OthersTake u n (holds m) mid t) u t)

/-- An arrival timer's expiry counts a miss, a send timer's gives a probe, a decay timer's lowers the counter, each at
the later of now and its instant (log entry 3); each restarts its timer, and the expiry of a stopped timer changes
nothing (log entry 17). A monitor that enters DOWN gives its fault signal before its probe (log entry 18). -/
def Obligations.SessionTimersRestartAndAct : Prop :=
  ∀ (monitor : Fin 32) (s : State), WalkerServed s → Clean s →
    let n := monitor.val
    let m := s.mon n
    (m.arrival = none → exec (.arrivalTimerExpiry monitor) s = .next s)
    ∧ (m.send = none → exec (.sendTimerExpiry monitor) s = .next s)
    ∧ (m.decay = none → exec (.decayTimerExpiry monitor) s = .next s)
    ∧ (∀ e, m.arrival = some e → ∃ t, exec (.arrivalTimerExpiry monitor) s = .next t
      ∧ (let m' := { m with arrival := some (max s.now e + periodOf m) }
        Checked n (match m.state with
          | .qualify => { m' with qualCount := 0 }
          | .up => { m' with confidence := min (m.confidence + m.cfg.missWeight) 255 }
          | .suspect => { m' with confidence := min (m.confidence + m.cfg.missWeight) 255 }
          | .down => m'
          | .disabled => m') [] { s with now := max s.now e } t))
    ∧ (∀ e, m.send = some e → probing m = true → ∃ t, exec (.sendTimerExpiry monitor) s = .next t
      ∧ MonitorActed n { m with send := some (max s.now e + 100 * m.cfg.txInterval) } none
          (some (match m.state with
            | .qualify => .init
            | .up => .up
            | .suspect => .up
            | .down => .down
            | .disabled => .down)) [] { s with now := max s.now e } t)
    ∧ (∀ e, m.decay = some e → ∃ t, exec (.decayTimerExpiry monitor) s = .next t
      ∧ Checked n { m with confidence := m.confidence - m.cfg.recoveryStep, decay := some (max s.now e + 100000) } []
          { s with now := max s.now e } t)

/-- A guard timer's expiry, at the later of now and its instant (log entry 3), takes its port to CLEAR, and each bound
monitor that it suppressed takes the end of its suppression as one evidence event, in an order that is free where there
are several (log entry 8), unless every source it ends for has reaction IGNORE (log entry 30); no other port or line
changes. The expiry at a port that is not in GUARD changes nothing (log entry 17). A monitor that enters DOWN gives its
fault signal before its probe (log entry 18). -/
def Obligations.GuardExpiryEndsSuppression : Prop :=
  ∀ (port : Fin 128) (s : State), WalkerServed s → Clean s →
    let i := .guardTimerExpiry port
    let p := port.val
    ((s.port p).suppression = .clear ∨ (s.port p).suppression = .signalled → exec i s = .next s)
    ∧ ∀ e, (s.port p).suppression = .guard e →
      let u := { modPort p (fun q => { q with suppression := .clear }) s with now := max s.now e }
      (endTakers s p = [] → exec i s = .next u)
      ∧ ∃ t, exec i s = .next t ∧ OneEvent (EachTakes (endTakers s p) (EndTaken u)) u t

/-! ### Monitor commands -/

/-- MONITOR_WRITE: the checks in order; an accepted write stores every field within its bounds, clears the damaged
flag, binds the staged fields in DISABLED and QUALIFY and leaves them pending in the other states, and answers the
state after it; in DISABLED nothing else changes but the session's memory and the latch (log entry 27). In the other
states it then moves liveness by drain-on-suspect, holds or releases the port by signal-on-down, sets or clears the
latch and takes its line's state by the latch mode, takes the end of the suppression that the write ends (log entry
30), and the checks of R77, R76 and R79 follow, a set PEER_DOWN hold being at neither level once the write makes its
reaction other than SUSPECT (log entry 26); where its release takes the port to CLEAR the others bound to it take the
end of its suppression, in an order that is free where there are several (log entry 8). In QUALIFY a changed staged
field restarts qualification instead, with the evidence of the new binding, kept under suppression where the binding
is not new (log entry 28) and noted where it is an activation (log entry 29), the latch left as it was where the write
takes the monitor off a suppressing port with its line unchanged and the echo-suppress flag kept (log entry 36). The
order of these parts is log entry 25's. A monitor that enters DOWN gives its fault signal before its probe, and one
that releases a port finishes before the others take the end of its suppression (log entry 18). -/
def Obligations.MonitorWriteStoresTheConfiguration : Prop :=
  ∀ (tag : Half) (a : MonitorArgs) (s : State), EngineFree s → WalkerServed s → Clean s →
    let i := .monitorWrite tag a
    let n := a.monitor.toNat
    let m := s.mon n
    let named := fun (bound : Nat) (b : Byte) => b = 255 ∨ b.toNat < bound
    let fieldsNamed := named 16 a.losLine ∧ named 128 a.boundPort ∧ a.losReaction.toNat < 4 ∧ a.portReaction.toNat < 4
      ∧ a.peerReaction.toNat < 4 ∧ a.latchMode.toNat < 2
    let taken := a.session ≠ 0 ∧ (a.localDisc = 0 ∨ ∃ k, k < 32 ∧ k ≠ n
      ∧ ((s.mon k).active.localDisc = a.localDisc ∨ ∃ b, (s.mon k).pending = some b ∧ b.localDisc = a.localDisc))
    (32 ≤ n ∨ ¬ fieldsNamed → Answers i (refusing tag 0x30 .range) s)
    ∧ (n < 32 → fieldsNamed → taken → Answers i (refusing tag 0x30 .duplicate) s)
    ∧ (n < 32 → fieldsNamed → ¬ taken →
      ∃ los port r1 r2 r3 lm, reactionOf a.losReaction = some r1 ∧ reactionOf a.portReaction = some r2
        ∧ reactionOf a.peerReaction = some r3 ∧ latchModeOf a.latchMode = some lm
        ∧ los = (if a.losLine = 255 then none else some a.losLine.toNat)
        ∧ port = (if a.boundPort = 255 then none else some a.boundPort.toNat)
        ∧ (let downAt := max a.downAt.toNat 2
          let suspectAt := min (max a.suspectAt.toNat 1) (downAt - 1)
          let c : MonCfg :=
            { losReaction := r1, portReaction := r2, peerReaction := r3, latchMode := lm
              echoLos := decide (a.echoLos ≠ 0), echoPort := decide (a.echoPort ≠ 0), drain := decide (a.drain ≠ 0)
              signal := decide (a.signal ≠ 0), priority := min a.priority.toNat 3
              holdBase := min (max a.holdBase.toNat 1) 1000, flapWindow := min (max a.flapWindow.toNat 1) 600
              qualifyTime := min a.qualifyTime.toNat 10000, txInterval := min (max a.txInterval.toNat 10) 10000
              minRx := min (max a.minRx.toNat 10) 10000, qualifyCount := min (max a.qualifyCount.toNat 1) 15
              missWeight := min (max a.missWeight.toNat 1) 64, errorWeight := min a.errorWeight.toNat 64
              recoveryStep := min (max a.recoveryStep.toNat 1) 16, downAt := downAt, suspectAt := suspectAt
              clearAt := min a.clearAt.toNat (suspectAt - 1) }
          let b : Binding :=
            if a.session = 0 then { los := los, port := port }
            else { los := los, port := port, session := true, localDisc := a.localDisc, remoteDisc := a.remoteDisc,
                   matchMask := a.matchMask }
          let differs := c.priority ≠ a.priority.toNat ∨ c.holdBase ≠ a.holdBase.toNat
            ∨ c.flapWindow ≠ a.flapWindow.toNat ∨ c.qualifyTime ≠ a.qualifyTime.toNat
            ∨ c.txInterval ≠ a.txInterval.toNat ∨ c.minRx ≠ a.minRx.toNat ∨ c.qualifyCount ≠ a.qualifyCount.toNat
            ∨ c.missWeight ≠ a.missWeight.toNat ∨ c.errorWeight ≠ a.errorWeight.toNat
            ∨ c.recoveryStep ≠ a.recoveryStep.toNat ∨ c.downAt ≠ a.downAt.toNat ∨ c.suspectAt ≠ a.suspectAt.toNat
            ∨ c.clearAt ≠ a.clearAt.toNat
          Performs i
            (fun u =>
              (u.mon n).cfg = c ∧ (u.mon n).damaged = false
              ∧ (m.state = .disabled ∨ m.state = .qualify → (u.mon n).active = b ∧ (u.mon n).pending = none)
              ∧ (m.state = .up ∨ m.state = .suspect ∨ m.state = .down →
                  (u.mon n).active = m.active ∧ (u.mon n).pending = some b)
              ∧ (∀ k, k ≠ n → (u.mon k).cfg = (s.mon k).cfg ∧ (u.mon k).active = (s.mon k).active
                  ∧ (u.mon k).pending = (s.mon k).pending)
              ∧ (m.state = .disabled → u = { s with uma := u.uma }
                ∧ u.uma = { s.uma with monitors := u.uma.monitors } ∧ (∀ k, k ≠ n → u.mon k = s.mon k)
                ∧ u.mon n = { rebind s b { m with cfg := c, damaged := false } with
                    latch :=
                      if m.cfg.latchMode = c.latchMode then m.latch && decide (b.los ≠ none)
                      else decide (c.latchMode = .latch) && lineOf s b })
              ∧ (let w := written s c b m
                let held := if holds m = none then holds w else none
                let released := if holds w = none then holds m else none
                let ends := fun (before after : Bool) =>
                  before && portSuppresses s m && (!after || releaseClears s released)
                let endsLos := ends m.cfg.echoLos c.echoLos
                let endsPort := ends m.cfg.echoPort c.echoPort
                (m.state ≠ .disabled → (m.state = .qualify → b = m.active) →
                  let moved := decide (monLive w ≠ monLive m)
                  let taken := decide (m.cfg.latchMode ≠ c.latchMode)
                    && !(c.echoLos && suppressesAfter s held released w)
                  let w1 := if taken then losValue (losPresented s w) w else w
                  let w2 := { w1 with converged := m.converged && !moved }
                  let e :=
                    if endsLos || endsPort then
                      suppressionTaken endsLos endsPort s.now (boundFiltered s w2) (boundDown s w2) w2
                    else (w2, false)
                  OneEvent (fun s u => ∃ mid v,
                    MonitorWritten n w2 held released (notedRaise n (moved || (taken && notesLos (losPresented s w) w))) s mid
                      ∧ Checked n (rearmed s.now e.1) (notedRaise n e.2) mid v ∧ OthersTake s n released v u) s u)
                ∧ (m.state = .qualify → b ≠ m.active →
                  let w1 := { w with
                    latch := w.latch || (endsLos && decide (c.latchMode = .latch) && boundFiltered s w) }
                  let newPort := decide (m.active.port ≠ b.port)
                  let e := entryEvidence s (portSuppresses s w) (newPort || decide (m.active.los ≠ b.los)) newPort w1
                  let probes := probing w && !probing m
                  EntersQualify n (requalifying s.now
                      { e.1 with send := if probes then some (s.now + 100 * c.txInterval) else w.send })
                    none (if probes then some .init else none) (notedRaise n e.2) s u)))
            (fun u => { tag := tag, code := 0x30, status := .ok, stillAsserted := false,
                        result := .monitorState (u.mon n).state, clamped := decide differs }) s))

/-- ENABLE: the checks in order; a DISABLED monitor enters QUALIFY under its pending binding, or its active one, with
its latch set in LATCH mode if its line is asserted and left as it was otherwise, and, the binding being new (log entry
28), the evidence that its line and port present, an activity with reaction NOTIFY being noted (log entry 29), and goes
on to DOWN or to service at once where R73 says so. A monitor that enters DOWN gives its fault signal before its probe (log
entry 18). -/
def Obligations.EnableEntersQualify : Prop :=
  ∀ (tag : Half) (monitor : Byte) (s : State), EngineFree s → WalkerServed s → Clean s →
    let i := .enable tag monitor
    let n := monitor.toNat
    let m := s.mon n
    (32 ≤ n → Answers i (refusing tag 0x32 .range) s)
    ∧ (n < 32 → m.damaged = true → Answers i (refusing tag 0x32 .damaged) s)
    ∧ (n < 32 → m.damaged = false → m.state ≠ .disabled → Answers i (refusing tag 0x32 .badState) s)
    ∧ (n < 32 → m.damaged = false → m.state = .disabled →
      let b := m.pending.getD m.active
      let m0 := rebind s b { m with reason := .enable, state := .qualify }
      let m1 := { m0 with latch := m0.latch || (decide (m.cfg.latchMode = .latch) && lineOf s b) }
      let m2 := qualifying s.now (entryEvidence s false true true m1).1
      Performs i (EntersQualify n m2 none (some .init) [rankMonitor n] s)
        (fun u => answering tag 0x32 .ok (.monitorState (u.mon n).state)) s)

/-- DISABLE: from any state the monitor releases the port it holds, its timers stop, its evidence clears and it enters
DISABLED with any pending binding active; a live uplink ceases to be live. Where its release takes its port to CLEAR,
the others bound to it take the end of its suppression, in an order that is free where there are several (log entry 8),
each as an evidence event unless every source it ends for has reaction IGNORE (log entry 30).
A monitor that enters DOWN gives its fault signal before its probe, and one that releases a port finishes before the
others take the end of its suppression (log entry 18). -/
def Obligations.DisableStopsTheMonitor : Prop :=
  ∀ (tag : Half) (monitor : Byte) (s : State), EngineFree s → WalkerServed s → Clean s →
    let i := .disable tag monitor
    let n := monitor.toNat
    let m := s.mon n
    let b := m.pending.getD m.active
    let stopped := { m with
      state := .disabled, reason := .disable, active := b, pending := none, losActive := false, portActive := false
      peerHold := false, hostActive := false, latch := false, flap := 0, lastService := none, hold := .stopped
      qualify := none, arrival := none, send := none, decay := none, learned := 0, peerState := .unknown
      peerTx := none, converged := m.converged && !monLive m }
    (32 ≤ n → Answers i (refusing tag 0x33 .range) s)
    ∧ (n < 32 → Performs i
        (OneEvent (fun s u => ∃ mid, MonitorActed n stopped (holds m) none [rankMonitor n] s mid
          ∧ OthersTake s n (holds m) mid u) s)
        (fun _ => answering tag 0x33 .ok (.monitorState .disabled)) s)

/-- FORCE_DOWN, RELEASE and CLEAR_LATCH: their checks in order; host evidence and the latch change as evidence events,
followed by the monitor's checks; a latch whose line is asserted stays set, and the filtered state of a monitor
without a line is answered as clear (log entry 37). A monitor that FORCE_DOWN takes to DOWN gives its fault signal
before its probe (log entry 18). -/
def Obligations.HostEvidenceAndLatchCommands : Prop :=
  ∀ (tag : Half) (monitor : Byte) (s : State), EngineFree s → WalkerServed s → Clean s →
    let force := .forceDown tag monitor
    let release := .release tag monitor
    let clear := .clearLatch tag monitor
    let n := monitor.toNat
    let m := s.mon n
    let latched := m.cfg.latchMode = .latch ∧ m.latch = true
    let filtered := boundFiltered s m
    (32 ≤ n → Answers force (refusing tag 0x34 .range) s ∧ Answers release (refusing tag 0x35 .range) s
      ∧ Answers clear (refusing tag 0x36 .range) s)
    ∧ (n < 32 → m.damaged = true → Answers force (refusing tag 0x34 .damaged) s
      ∧ Answers release (refusing tag 0x35 .damaged) s)
    ∧ (n < 32 → m.damaged = false → m.state = .disabled → Answers force (refusing tag 0x34 .badState) s)
    ∧ (n < 32 → m.damaged = false → m.state ≠ .disabled → m.hostActive = true →
      Answers force (answering tag 0x34 .ok (.monitorState m.state)) s)
    ∧ (n < 32 → m.damaged = false → m.state ≠ .disabled → m.hostActive = false →
      Performs force (Checked n (evidenceRestarts s.now { m with hostActive := true }) [] s)
        (fun u => answering tag 0x34 .ok (.monitorState (u.mon n).state)) s)
    ∧ (n < 32 → m.damaged = false → m.hostActive = false →
      Answers release (answering tag 0x35 .ok (.monitorState m.state)) s)
    ∧ (n < 32 → m.damaged = false → m.hostActive = true →
      Performs release (Checked n (evidenceRestarts s.now { m with hostActive := false }) [] s)
        (fun u => answering tag 0x35 .ok (.monitorState (u.mon n).state)) s)
    ∧ (n < 32 → ¬ latched → Answers clear (answering tag 0x36 .ok (.latch m.latch filtered)) s)
    ∧ (n < 32 → latched → filtered = true → Answers clear
        { tag := tag, code := 0x36, status := .ok, clamped := false, stillAsserted := true,
          result := .latch true true } s)
    ∧ (n < 32 → latched → filtered = false → (m.state = .disabled ∨ (m.cfg.echoLos = true ∧ suppressedFor s m)) →
      Performs clear (MonitorMoved n { m with latch := false } [] s)
        (fun _ => answering tag 0x36 .ok (.latch false false)) s)
    ∧ (n < 32 → latched → filtered = false → m.state ≠ .disabled → (m.cfg.echoLos = false ∨ unsuppressed s m) →
      Performs clear (Checked n (losTaken s.now false { m with latch := false }) [] s)
        (fun _ => answering tag 0x36 .ok (.latch false false)) s)

/-! ### The walker's steps -/

/-- A job step settles the next group of its walk and moves the cursor to it, or completes the job at the end; with
restart set the walk begins again. The walk is over the uplink's list, or over the whole table while the dependency
index awaits rebuild. An entry that reads uncorrectable sets the pending flag, settles nothing and returns every
cursor (R139, R154). The walker then chooses its next work by R137, and the table writer its next operation by R146;
the other jobs and the audit stay as they were. -/
def Obligations.JobStepSettlesTheNextGroup : Prop :=
  (∀ (u : Nat) (j : Job) (s : State), u < 32 → StepGranted (.job u) s → s.job u = some j → jobsInProgress s = [u] →
    Clean s → Canonical s →
    ∃ t, exec .jobStep s = .next t ∧ StepKept s t ∧ t.adjs = s.adjs ∧ t.dpx = s.dpx ∧ t.rck = s.rck
      ∧ StepFollowed (some u) s t ∧ AuditKept s t ∧ JobsKept [u] s t
      ∧ (∀ g, jobFinds s u j.cursor = some g →
        (∀ x, t.group x = if x = g then settledByStep s (s.group g) else s.group x)
        ∧ StepDepleted s t g ∧ t.uma = s.uma ∧ Raised (stepEvents s g) s t
        ∧ t.job u = some { cursor := if j.restart then none else some g, restart := false,
                           inProgress := decide (t.rwk.work = .job u) })
      ∧ (jobFinds s u j.cursor = none → t.groups = s.groups ∧ t.twr.depleted = s.twr.depleted
        ∧ (j.restart = true → t.uma = s.uma ∧ Raised [] s t
          ∧ t.job u = some { cursor := none, restart := false, inProgress := decide (t.rwk.work = .job u) })
        ∧ (j.restart = false → t.job u = none ∧ Raised [rankJobDone u] s t
          ∧ t.uma = { s.uma with monitors := t.uma.monitors }
          ∧ ∀ k, t.mon k = if k = u then { s.mon u with converged := true } else s.mon k)))
  ∧ ∀ (u g : Nat) (j : Job) (s : State), u < 32 → StepGranted (.job u) s → s.job u = some j → jobsInProgress s = [u] →
    Canonical s → s.rck.dependencyPending = false → jobFinds s u j.cursor = some g →
    OnlyDamaged (.entry u g) .uncorrectable s →
    ∃ t, exec .jobStep s = .next t ∧ StepKept s t ∧ t.groups = s.groups ∧ t.adjs = s.adjs ∧ t.dpx = s.dpx
      ∧ t.uma = s.uma ∧ t.twr.depleted = s.twr.depleted ∧ StepFollowed (some u) s t
      ∧ t.rck = { s.rck with dependencyPending := true, uncorrected := s.rck.uncorrected.bump .dependency }
      ∧ Raised [rankIntegrity] s t ∧ AuditKept s t
      ∧ ∀ v, t.job v = (s.job v).map (fun k =>
          { cursor := none, restart := if v = u then false else k.restart,
            inProgress := decide (t.rwk.work = .job v) })

/-- The dependency rebuild writes every uplink's list afresh from the group records and clears the pending flag; where
the lists would not fit the pool it writes nothing, sets table fault and raises INTEGRITY. The walker then chooses its
next work by R137, and the table writer its next operation by R146; the jobs and the audit stay as they were. -/
def Obligations.DependencyRebuildWritesTheListsAfresh : Prop :=
  ∀ s : State, StepGranted .dependencyRebuild s → Clean s → Canonical s →
    let named := fun (r : Group) (u : Nat) => r.status ≠ .notInstalled
      ∧ ∃ m ∈ r.members, (s.adj m.adj).status = .valid ∧ (s.adj m.adj).uplink = some u
    let total := ((List.range 32).map (fun u =>
      (s.groups.filter (fun e => decide (e.2.status ≠ .notInstalled)
        && e.2.members.any (fun m => decide ((s.adj m.adj).status = .valid) && decide ((s.adj m.adj).uplink = some u)))).length)).sum
    ∃ t, exec .dependencyRebuild s = .next t ∧ StepKept s t ∧ t.groups = s.groups ∧ t.adjs = s.adjs ∧ t.uma = s.uma
      ∧ t.twr.depleted = s.twr.depleted ∧ AuditKept s t
      ∧ (jobsInProgress s = [] → StepFollowed none s t ∧ JobsKept [] s t)
      ∧ (total ≤ 16384 → (∀ u, u < 32 → (t.depList u).Pairwise (· < ·) ∧ ∀ g, g ∈ t.depList u ↔ named (s.group g) u)
        ∧ PoolExact t ∧ t.rck = { s.rck with dependencyPending := false } ∧ Raised [] s t)
      ∧ (16384 < total → t.dpx = s.dpx ∧ t.rck = { s.rck with tableFault := true } ∧ Raised [rankIntegrity] s t)

/-- A rebuild step takes the lowest handle of the rebuild list off it; an INSTALLED group is dealt afresh from its
member records, settled and published, any other group is left as it is. The walker then chooses its next work by
R137, and the table writer its next operation by R146; the jobs and the audit stay as they were. -/
def Obligations.RebuildStepDealsTheLowestGroup : Prop :=
  ∀ s : State, StepGranted .rebuild s → Clean s → Canonical s →
    ∃ t, exec .rebuildStep s = .next t ∧ StepKept s t ∧ t.adjs = s.adjs ∧ t.dpx = s.dpx ∧ t.uma = s.uma
      ∧ AuditKept s t ∧ (jobsInProgress s = [] → StepFollowed none s t ∧ JobsKept [] s t)
      ∧ (s.rck.rebuildList = [] →
        t.groups = s.groups ∧ t.rck = s.rck ∧ t.twr.depleted = s.twr.depleted ∧ Raised [] s t)
      ∧ ∀ g l, s.rck.rebuildList = g :: l → t.rck = { s.rck with rebuildList := l }
        ∧ (let r := s.group g
          let counts := homeCounts (r.members.map (·.weight)) r.bucketCount.size
          let dealt := { r with
            members := r.members.zipWith (fun (m : Member) (c : Nat) => { m with homeCount := c }) counts
            buckets := (placement r.stripe counts).map (fun h => ({ home := h, current := h } : Bucket)) }
          (r.status ≠ .installed → t.groups = s.groups ∧ t.twr.depleted = s.twr.depleted ∧ Raised [] s t)
          ∧ (r.status = .installed →
            (∀ x, t.group x = if x = g then { settled s dealt with revision := (r.revision + 1) % 65536 } else s.group x)
            ∧ DepletedAfter s t g (settled s dealt).liveCount
            ∧ Raised (depletionEvents s g (settled s dealt).liveCount r.notify) s t))

/-- An audit step settles the next INSTALLED group and moves the audit cursor to it, or ends the pass; it reads both
copies of every duplicated field of the group's header, its members and their adjacencies (R159; what a settle reads:
log entry 14). A step in flight when AUDIT_SET turned the pass off settles all the same, and with no group left ends
no pass again (log entry 31). The walker then chooses its next work by R137, and the table writer its next operation
by R146; the jobs stay as they were. The audit timer's expiry, where an IDLE walker has found no work (WalkerServed),
at the later of now and its instant (log entry 3), begins a pass, and changes nothing unless the audit is WAITING (log
entry 17). -/
def Obligations.AuditStepsSettleInTurn : Prop :=
  (∀ s : State, StepGranted .audit s → Clean s → Canonical s →
    ∃ t, exec .auditStep s = .next t ∧ StepKept s t ∧ t.adjs = s.adjs ∧ t.dpx = s.dpx ∧ t.uma = s.uma ∧ t.rck = s.rck
      ∧ t.rwk = { s.rwk with
          work := t.rwk.work, inFlight := t.rwk.inFlight, jobs := t.rwk.jobs, audit := t.rwk.audit
          auditCursor := t.rwk.auditCursor }
      ∧ (jobsInProgress s = [] → StepFollowed none s t ∧ JobsKept [] s t)
      ∧ (∀ g, installedAbove s s.rwk.auditCursor = some g →
        (∀ x, t.group x = if x = g then settledByStep s (s.group g) else s.group x)
        ∧ StepDepleted s t g ∧ t.rwk.audit = s.rwk.audit ∧ t.rwk.auditCursor = some g ∧ Raised (stepEvents s g) s t)
      ∧ (installedAbove s s.rwk.auditCursor = none → t.groups = s.groups ∧ t.twr.depleted = s.twr.depleted
        ∧ (s.rwk.audit = .pass → t.rwk.auditCursor = none ∧ Raised [rankAuditPass] s t
          ∧ t.rwk.audit = match s.rwk.auditInterval with
            | some x => .waiting (s.now + 1000000 * x)
            | none => .off)
        ∧ (s.rwk.audit ≠ .pass → t.rwk.audit = s.rwk.audit ∧ t.rwk.auditCursor = s.rwk.auditCursor ∧ Raised [] s t)))
  ∧ (∀ (s : State) (g : Nat) (second : Bool) (d : Damage), StepGranted .audit s → Canonical s →
    installedAbove s s.rwk.auditCursor = some g →
    let members := (s.group g).members
    let header := [DupField.groupStatus g, .groupRevision g, .groupReferrers g, .groupBackup g]
    let fields := header.map (fun f => (f, RecKind.header))
      ++ (List.range members.length).map (fun i => (DupField.memberLink g i, RecKind.member))
      ++ members.flatMap (fun m => [(DupField.adjStatus m.adj, RecKind.adjacency), (.adjRefs m.adj, .adjacency)])
    ∀ f ∈ fields, OnlyDamaged (.copy f.1 second) d s →
    ∃ t, exec .auditStep s = .next t ∧ StepKept s t ∧ t.adjs = s.adjs ∧ t.dpx = s.dpx ∧ t.uma = s.uma
      ∧ t.rwk = { s.rwk with work := t.rwk.work, inFlight := t.rwk.inFlight, jobs := t.rwk.jobs, auditCursor := some g }
      ∧ (jobsInProgress s = [] → StepFollowed none s t ∧ JobsKept [] s t)
      ∧ t.rck = { s.rck with damage := [], corrected := s.rck.corrected.bump f.2 }
      ∧ StepDepleted s t g ∧ Raised (stepEvents s g) s t
      ∧ ∀ x, t.group x = if x = g then settledByStep s (s.group g) else s.group x)
  ∧ (∀ s : State, (∀ e, s.rwk.audit ≠ .waiting e) → WalkerServed s → exec .auditTimerExpiry s = .next s)
  ∧ ∀ (s : State) (e : Nat), s.rwk.audit = .waiting e → WalkerServed s → ∃ t, exec .auditTimerExpiry s = .next t
      ∧ t = { s with now := max s.now e, rwk := t.rwk, twr := t.twr } ∧ t.twr.depleted = s.twr.depleted
      ∧ t.rwk = { s.rwk with audit := .pass, auditCursor := none, work := t.rwk.work, inFlight := t.rwk.inFlight }
      ∧ (s.rwk.work = .idle → s.rwk.inFlight = false → t.rwk.work = .audit ∧ t.rwk.inFlight = true
        ∧ (s.twr.performing = none → t.twr.performing = some .walker))

/-! ### Dealing and settling -/

/-- Home counts. First each member's share in proportion to its weight: the floor, and one bucket more for each of the
first R members by remainder, equal remainders by lower index. -/
def Obligations.LargestRemainderShares : Prop :=
  ∀ (ws : List Nat) (B : Nat), ws ≠ [] → ws.length ≤ 16 → (∀ w ∈ ws, 1 ≤ w ∧ w ≤ 255) →
    let W := ws.sum
    let floor := fun (i : Nat) => B * ws.getD i 0 / W
    let rem := fun (i : Nat) => B * ws.getD i 0 % W
    let R := B - ((List.range ws.length).map floor).sum
    let before := fun (i j : Nat) => rem i < rem j ∨ (rem j = rem i ∧ j < i)
    1 ≤ W ∧ W ≤ 4080 ∧ R ≤ ws.length - 1
    ∧ (sharedCounts ws B).length = ws.length ∧ (sharedCounts ws B).sum = B
    ∧ ((List.range ws.length).map rem).sum = R * W
    ∧ (0 < R → R < ((List.range ws.length).filter (fun i => decide (rem i ≠ 0))).length)
    ∧ ∀ i, i < ws.length →
      (sharedCounts ws B).getD i 0
        = floor i + (if ((List.range ws.length).filter (fun j => decide (before i j))).length < R then 1 else 0)
      ∧ (((List.range ws.length).filter (fun j => decide (before i j))).length < R → rem i ≠ 0)

/-- Then every member without a bucket takes one from the member with the most, in ascending order of visit: each member
ends with at least one and the counts still sum to B. -/
def Obligations.EveryMemberHoldsABucket : Prop :=
  (∀ (ws : List Nat) (B : Nat), homeCounts ws B = (List.range ws.length).foldl giveOne (sharedCounts ws B))
  ∧ (∀ (cs : List Nat) (i : Nat), i < cs.length → cs.length ≤ 16 → 16 ≤ cs.sum →
    (cs.getD i 0 ≠ 0 → giveOne cs i = cs)
    ∧ (cs.getD i 0 = 0 → ∃ d, d < cs.length ∧ 2 ≤ cs.getD d 0
      ∧ (∀ k, k < cs.length → cs.getD k 0 < cs.getD d 0 ∨ (cs.getD k 0 = cs.getD d 0 ∧ k ≤ d))
      ∧ giveOne cs i = (cs.set d (cs.getD d 0 - 1)).set i 1))
  ∧ ∀ (ws : List Nat) (B : Nat), ws ≠ [] → ws.length ≤ 16 → (∀ w ∈ ws, 1 ≤ w) → 16 ≤ B →
    (homeCounts ws B).length = ws.length ∧ (homeCounts ws B).sum = B ∧ (∀ c ∈ homeCounts ws B, 1 ≤ c ∧ c ≤ B)
    ∧ (ws.length = 1 → homeCounts ws B = [B])

/-- Placement hands out the bucket indices in ascending order: a run for each member in CONTIGUOUS mode; one index, or
up to two, for each member still owed buckets in each pass of ROUND and PAIRS mode. -/
def Obligations.PlacementFollowsTheStripeMode : Prop :=
  ∀ cs : List Nat,
    let k := cs.length
    let c := fun (i : Nat) => cs.getD i 0
    placement .contiguous cs = (List.range k).flatMap (fun i => List.replicate (c i) i)
    ∧ placement .round cs
      = (List.range (cs.foldl max 0)).flatMap (fun p => (List.range k).filter (fun i => decide (p < c i)))
    ∧ placement .pairs cs
      = (List.range (cs.foldl max 0)).flatMap (fun p => (List.range k).flatMap (fun i => List.replicate (min 2 (c i - 2 * p)) i))
    ∧ ∀ mode, (placement mode cs).length = cs.sum ∧ ∀ i, i < k → (placement mode cs).count i = c i

/-- A settle that follows another of the same group under the same liveness changes nothing: no withdrawn mark, current
member, live count or revision, no depleted set, no event. With a live member every bucket then holds its home member or
L[b mod n], whatever it held before, and two groups dealt alike hold the same current members. -/
def Obligations.SettleIsIdempotent : Prop :=
  (∀ (g : Nat) (s : State), Clean s → settleStep false g (settleStep false g s) = settleStep false g s)
  ∧ (∀ (g : Nat) (s : State), Clean s → (s.group g).status = .installed →
    let live := liveList s (s.group g).members
    live ≠ [] → ∀ b k, ((settleStep false g s).group g).buckets[b]? = some k →
      k.current = k.home ∨ live[b % live.length]? = some k.current)
  ∧ ∀ (g h : Nat) (s : State), Clean s → (s.group g).status = .installed → (s.group h).status = .installed →
    let content := fun (r : Group) =>
      (r.bucketCount, r.stripe, r.members.map (fun m => (m.adj, m.weight, m.enabled)))
    let dealt := fun (r : Group) =>
      r.buckets.map (·.home) = placement r.stripe (homeCounts (r.members.map (·.weight)) r.bucketCount.size)
    content (s.group g) = content (s.group h) → dealt (s.group g) → dealt (s.group h) →
    liveList s (s.group g).members ≠ [] →
    ((settleStep false g s).group g).buckets.map (·.current) = ((settleStep false h s).group h).buckets.map (·.current)

/-! ### Whole-machine rules -/

/-- A FORWARD answer names the port and rewrite index of a VALID adjacency whose uplink is none or live at the instant
of its request, whatever units of storage are damaged. -/
def Obligations.ForwardAnswersNameALiveAdjacency : Prop :=
  ∀ (tag : Byte) (group hash : Half) (s : State) (a : Answer), s.fsl.link = .active → s.fsl.credits ≠ 0 →
    ∃ t, exec (.resolveReq tag group hash) s = .next t
      ∧ (t.rsu.answers = s.rsu.answers ++ [a] → a.content.verdict = .forward →
        ∃ x, (t.adj x).status = .valid ∧ (s.adj x).status = .valid
          ∧ ((s.adj x).uplink = none ∨ ∃ u, (s.adj x).uplink = some u ∧ uplinkLive s u = true)
          ∧ a.content.port = (s.adj x).port ∧ a.content.rewrite = (s.adj x).rewrite)

/-- Queued answers are not revised: a request adds one at the tail, sending removes the head, the loss of the link or a
device reset empties the queue, and no other command touches it. -/
def Obligations.QueuedAnswersAreNotRevised : Prop :=
  ∀ (i : Instr) (s t : State), exec i s = .next t →
    t.rsu.answers = s.rsu.answers
    ∨ (∃ tag group hash a, i = .resolveReq tag group hash ∧ s.fsl.link = .active ∧ s.fsl.credits ≠ 0
        ∧ t.rsu.answers = s.rsu.answers ++ [a])
    ∨ (∃ a, i = .resolveAns ∧ s.rsu.answers = a :: t.rsu.answers)
    ∨ (t.rsu.answers = [] ∧ ((∃ l, i = .deviceReset l) ∨ i = .lossOfLock ∨ ∃ m f, i = .badMessage m f))

/-- Groups, adjacencies, dependency lists and the depleted set change at the table writer's operations and device reset
alone: no read, monitor command, link message, timer or reset of the route processor's port moves them. -/
def Obligations.TablesMoveOnlyAtTheTableWriter : Prop :=
  ∀ (i : Instr) (s t : State), Clean s → exec i s = .next t →
    t.groups = s.groups ∧ t.adjs = s.adjs ∧ t.dpx = s.dpx ∧ t.twr.depleted = s.twr.depleted
    ∨ (match i with
      | .deviceReset _ => True
      | .adjWrite _ _ _ _ _ => True
      | .adjDelete _ _ => True
      | .groupWrite _ _ => True
      | .groupDelete _ _ => True
      | .memberSet _ _ _ _ => True
      | .jobStep => True
      | .dependencyRebuild => True
      | .rebuildStep => True
      | .auditStep => True
      | _ => False)

/-- A monitor leaves DISABLED only by ENABLE (R67): no row takes one out of DISABLED but an ENABLE of that monitor, or
one at which the engine may take a record that is one. -/
def Obligations.DisabledMonitorsStayDisabled : Prop :=
  ∀ (i : Instr) (s t : State) (n : Nat), exec i s = .next t → (s.mon n).state = .disabled →
    (t.mon n).state = .disabled
    ∨ (∃ tag monitor, i = .enable tag monitor ∧ monitor.toNat = n)
    ∨ ∃ r monitor, mayTake i s r ∧ parseRecord r = .ok (.enable monitor) ∧ monitor.toNat = n

/-! ### Invariants -/

/-- Every step keeps every table and ordered list in its canonical form. -/
def Obligations.StepKeepsTablesCanonical : Prop :=
  ∀ s t : State, Canonical s → step s = .next t → Canonical t

/-- Every step keeps the reference counts, the referrer counts, the backup relation and the pool exact. -/
def Obligations.StepKeepsCountsExact : Prop :=
  ∀ s t : State, Canonical s ∧ PoolExact s ∧ ReferencesExact s → step s = .next t →
    Canonical t ∧ PoolExact t ∧ ReferencesExact t

/-- Every step keeps the sum of the three credit quantities at 64 while the link is ACTIVE, and at nothing while it is
not. -/
def Obligations.StepKeepsCreditsBalanced : Prop :=
  ∀ s t : State, CreditsBalanced s → step s = .next t → CreditsBalanced t

/-- Every step keeps the command engine, the table writer and the walker consistent. -/
def Obligations.StepKeepsTheEnginesConsistent : Prop :=
  ∀ s t : State, EngineConsistent s ∧ WriterConsistent s → step s = .next t → EngineConsistent t ∧ WriterConsistent t

/-- Every step keeps each port's holder count the number of monitors that hold it. -/
def Obligations.StepKeepsHoldersExact : Prop :=
  ∀ s t : State, Canonical s ∧ HoldersExact s → step s = .next t → HoldersExact t

/-- Every step keeps the dependency lists exact while no unit is damaged. -/
def Obligations.StepKeepsDependencyListsExact : Prop :=
  ∀ s t : State, IndexExact s → step s = .next t → IndexExact t

/-- The state after device reset meets every invariant. -/
def Obligations.ResetMeetsTheInvariants : Prop :=
  Canonical State.reset ∧ PoolExact State.reset ∧ ReferencesExact State.reset ∧ CreditsBalanced State.reset
    ∧ EngineConsistent State.reset ∧ WriterConsistent State.reset ∧ HoldersExact State.reset ∧ IndexExact State.reset
end

