-- ==== Sys2Proof/Laws/State.lean ====
section
/-!
SUPPORT. One lemma for each field and each of the block updates of Machine/Ops.lean, true by unfolding.
-/

namespace Sys2Proof.Machine

@[simp] theorem modFsl_pending (f : Fsl → Fsl) (s : State) : (modFsl f s).pending = s.pending := rfl
@[simp] theorem modFsl_now (f : Fsl → Fsl) (s : State) : (modFsl f s).now = s.now := rfl
@[simp] theorem modFsl_draws (f : Fsl → Fsl) (s : State) : (modFsl f s).draws = s.draws := rfl
@[simp] theorem modFsl_fsl (f : Fsl → Fsl) (s : State) : (modFsl f s).fsl = f s.fsl := rfl
@[simp] theorem modFsl_rsu (f : Fsl → Fsl) (s : State) : (modFsl f s).rsu = s.rsu := rfl
@[simp] theorem modFsl_groups (f : Fsl → Fsl) (s : State) : (modFsl f s).groups = s.groups := rfl
@[simp] theorem modFsl_adjs (f : Fsl → Fsl) (s : State) : (modFsl f s).adjs = s.adjs := rfl
@[simp] theorem modFsl_dpx (f : Fsl → Fsl) (s : State) : (modFsl f s).dpx = s.dpx := rfl
@[simp] theorem modFsl_twr (f : Fsl → Fsl) (s : State) : (modFsl f s).twr = s.twr := rfl
@[simp] theorem modFsl_rwk (f : Fsl → Fsl) (s : State) : (modFsl f s).rwk = s.rwk := rfl
@[simp] theorem modFsl_uma (f : Fsl → Fsl) (s : State) : (modFsl f s).uma = s.uma := rfl
@[simp] theorem modFsl_evu (f : Fsl → Fsl) (s : State) : (modFsl f s).evu = s.evu := rfl
@[simp] theorem modFsl_rck (f : Fsl → Fsl) (s : State) : (modFsl f s).rck = s.rck := rfl
@[simp] theorem modFsl_cme (f : Fsl → Fsl) (s : State) : (modFsl f s).cme = s.cme := rfl
@[simp] theorem modFsl_nfu (f : Fsl → Fsl) (s : State) : (modFsl f s).nfu = s.nfu := rfl
@[simp] theorem modFsl_out (f : Fsl → Fsl) (s : State) : (modFsl f s).out = s.out := rfl

@[simp] theorem modRsu_pending (f : Rsu → Rsu) (s : State) : (modRsu f s).pending = s.pending := rfl
@[simp] theorem modRsu_now (f : Rsu → Rsu) (s : State) : (modRsu f s).now = s.now := rfl
@[simp] theorem modRsu_draws (f : Rsu → Rsu) (s : State) : (modRsu f s).draws = s.draws := rfl
@[simp] theorem modRsu_fsl (f : Rsu → Rsu) (s : State) : (modRsu f s).fsl = s.fsl := rfl
@[simp] theorem modRsu_rsu (f : Rsu → Rsu) (s : State) : (modRsu f s).rsu = f s.rsu := rfl
@[simp] theorem modRsu_groups (f : Rsu → Rsu) (s : State) : (modRsu f s).groups = s.groups := rfl
@[simp] theorem modRsu_adjs (f : Rsu → Rsu) (s : State) : (modRsu f s).adjs = s.adjs := rfl
@[simp] theorem modRsu_dpx (f : Rsu → Rsu) (s : State) : (modRsu f s).dpx = s.dpx := rfl
@[simp] theorem modRsu_twr (f : Rsu → Rsu) (s : State) : (modRsu f s).twr = s.twr := rfl
@[simp] theorem modRsu_rwk (f : Rsu → Rsu) (s : State) : (modRsu f s).rwk = s.rwk := rfl
@[simp] theorem modRsu_uma (f : Rsu → Rsu) (s : State) : (modRsu f s).uma = s.uma := rfl
@[simp] theorem modRsu_evu (f : Rsu → Rsu) (s : State) : (modRsu f s).evu = s.evu := rfl
@[simp] theorem modRsu_rck (f : Rsu → Rsu) (s : State) : (modRsu f s).rck = s.rck := rfl
@[simp] theorem modRsu_cme (f : Rsu → Rsu) (s : State) : (modRsu f s).cme = s.cme := rfl
@[simp] theorem modRsu_nfu (f : Rsu → Rsu) (s : State) : (modRsu f s).nfu = s.nfu := rfl
@[simp] theorem modRsu_out (f : Rsu → Rsu) (s : State) : (modRsu f s).out = s.out := rfl

@[simp] theorem modGroups_pending (f : Table Group → Table Group) (s : State) : (modGroups f s).pending = s.pending := rfl
@[simp] theorem modGroups_now (f : Table Group → Table Group) (s : State) : (modGroups f s).now = s.now := rfl
@[simp] theorem modGroups_draws (f : Table Group → Table Group) (s : State) : (modGroups f s).draws = s.draws := rfl
@[simp] theorem modGroups_fsl (f : Table Group → Table Group) (s : State) : (modGroups f s).fsl = s.fsl := rfl
@[simp] theorem modGroups_rsu (f : Table Group → Table Group) (s : State) : (modGroups f s).rsu = s.rsu := rfl
@[simp] theorem modGroups_groups (f : Table Group → Table Group) (s : State) : (modGroups f s).groups = f s.groups := rfl
@[simp] theorem modGroups_adjs (f : Table Group → Table Group) (s : State) : (modGroups f s).adjs = s.adjs := rfl
@[simp] theorem modGroups_dpx (f : Table Group → Table Group) (s : State) : (modGroups f s).dpx = s.dpx := rfl
@[simp] theorem modGroups_twr (f : Table Group → Table Group) (s : State) : (modGroups f s).twr = s.twr := rfl
@[simp] theorem modGroups_rwk (f : Table Group → Table Group) (s : State) : (modGroups f s).rwk = s.rwk := rfl
@[simp] theorem modGroups_uma (f : Table Group → Table Group) (s : State) : (modGroups f s).uma = s.uma := rfl
@[simp] theorem modGroups_evu (f : Table Group → Table Group) (s : State) : (modGroups f s).evu = s.evu := rfl
@[simp] theorem modGroups_rck (f : Table Group → Table Group) (s : State) : (modGroups f s).rck = s.rck := rfl
@[simp] theorem modGroups_cme (f : Table Group → Table Group) (s : State) : (modGroups f s).cme = s.cme := rfl
@[simp] theorem modGroups_nfu (f : Table Group → Table Group) (s : State) : (modGroups f s).nfu = s.nfu := rfl
@[simp] theorem modGroups_out (f : Table Group → Table Group) (s : State) : (modGroups f s).out = s.out := rfl

@[simp] theorem modAdjs_pending (f : Table Adj → Table Adj) (s : State) : (modAdjs f s).pending = s.pending := rfl
@[simp] theorem modAdjs_now (f : Table Adj → Table Adj) (s : State) : (modAdjs f s).now = s.now := rfl
@[simp] theorem modAdjs_draws (f : Table Adj → Table Adj) (s : State) : (modAdjs f s).draws = s.draws := rfl
@[simp] theorem modAdjs_fsl (f : Table Adj → Table Adj) (s : State) : (modAdjs f s).fsl = s.fsl := rfl
@[simp] theorem modAdjs_rsu (f : Table Adj → Table Adj) (s : State) : (modAdjs f s).rsu = s.rsu := rfl
@[simp] theorem modAdjs_groups (f : Table Adj → Table Adj) (s : State) : (modAdjs f s).groups = s.groups := rfl
@[simp] theorem modAdjs_adjs (f : Table Adj → Table Adj) (s : State) : (modAdjs f s).adjs = f s.adjs := rfl
@[simp] theorem modAdjs_dpx (f : Table Adj → Table Adj) (s : State) : (modAdjs f s).dpx = s.dpx := rfl
@[simp] theorem modAdjs_twr (f : Table Adj → Table Adj) (s : State) : (modAdjs f s).twr = s.twr := rfl
@[simp] theorem modAdjs_rwk (f : Table Adj → Table Adj) (s : State) : (modAdjs f s).rwk = s.rwk := rfl
@[simp] theorem modAdjs_uma (f : Table Adj → Table Adj) (s : State) : (modAdjs f s).uma = s.uma := rfl
@[simp] theorem modAdjs_evu (f : Table Adj → Table Adj) (s : State) : (modAdjs f s).evu = s.evu := rfl
@[simp] theorem modAdjs_rck (f : Table Adj → Table Adj) (s : State) : (modAdjs f s).rck = s.rck := rfl
@[simp] theorem modAdjs_cme (f : Table Adj → Table Adj) (s : State) : (modAdjs f s).cme = s.cme := rfl
@[simp] theorem modAdjs_nfu (f : Table Adj → Table Adj) (s : State) : (modAdjs f s).nfu = s.nfu := rfl
@[simp] theorem modAdjs_out (f : Table Adj → Table Adj) (s : State) : (modAdjs f s).out = s.out := rfl

@[simp] theorem modDpx_pending (f : Dpx → Dpx) (s : State) : (modDpx f s).pending = s.pending := rfl
@[simp] theorem modDpx_now (f : Dpx → Dpx) (s : State) : (modDpx f s).now = s.now := rfl
@[simp] theorem modDpx_draws (f : Dpx → Dpx) (s : State) : (modDpx f s).draws = s.draws := rfl
@[simp] theorem modDpx_fsl (f : Dpx → Dpx) (s : State) : (modDpx f s).fsl = s.fsl := rfl
@[simp] theorem modDpx_rsu (f : Dpx → Dpx) (s : State) : (modDpx f s).rsu = s.rsu := rfl
@[simp] theorem modDpx_groups (f : Dpx → Dpx) (s : State) : (modDpx f s).groups = s.groups := rfl
@[simp] theorem modDpx_adjs (f : Dpx → Dpx) (s : State) : (modDpx f s).adjs = s.adjs := rfl
@[simp] theorem modDpx_dpx (f : Dpx → Dpx) (s : State) : (modDpx f s).dpx = f s.dpx := rfl
@[simp] theorem modDpx_twr (f : Dpx → Dpx) (s : State) : (modDpx f s).twr = s.twr := rfl
@[simp] theorem modDpx_rwk (f : Dpx → Dpx) (s : State) : (modDpx f s).rwk = s.rwk := rfl
@[simp] theorem modDpx_uma (f : Dpx → Dpx) (s : State) : (modDpx f s).uma = s.uma := rfl
@[simp] theorem modDpx_evu (f : Dpx → Dpx) (s : State) : (modDpx f s).evu = s.evu := rfl
@[simp] theorem modDpx_rck (f : Dpx → Dpx) (s : State) : (modDpx f s).rck = s.rck := rfl
@[simp] theorem modDpx_cme (f : Dpx → Dpx) (s : State) : (modDpx f s).cme = s.cme := rfl
@[simp] theorem modDpx_nfu (f : Dpx → Dpx) (s : State) : (modDpx f s).nfu = s.nfu := rfl
@[simp] theorem modDpx_out (f : Dpx → Dpx) (s : State) : (modDpx f s).out = s.out := rfl

@[simp] theorem modTwr_pending (f : Twr → Twr) (s : State) : (modTwr f s).pending = s.pending := rfl
@[simp] theorem modTwr_now (f : Twr → Twr) (s : State) : (modTwr f s).now = s.now := rfl
@[simp] theorem modTwr_draws (f : Twr → Twr) (s : State) : (modTwr f s).draws = s.draws := rfl
@[simp] theorem modTwr_fsl (f : Twr → Twr) (s : State) : (modTwr f s).fsl = s.fsl := rfl
@[simp] theorem modTwr_rsu (f : Twr → Twr) (s : State) : (modTwr f s).rsu = s.rsu := rfl
@[simp] theorem modTwr_groups (f : Twr → Twr) (s : State) : (modTwr f s).groups = s.groups := rfl
@[simp] theorem modTwr_adjs (f : Twr → Twr) (s : State) : (modTwr f s).adjs = s.adjs := rfl
@[simp] theorem modTwr_dpx (f : Twr → Twr) (s : State) : (modTwr f s).dpx = s.dpx := rfl
@[simp] theorem modTwr_twr (f : Twr → Twr) (s : State) : (modTwr f s).twr = f s.twr := rfl
@[simp] theorem modTwr_rwk (f : Twr → Twr) (s : State) : (modTwr f s).rwk = s.rwk := rfl
@[simp] theorem modTwr_uma (f : Twr → Twr) (s : State) : (modTwr f s).uma = s.uma := rfl
@[simp] theorem modTwr_evu (f : Twr → Twr) (s : State) : (modTwr f s).evu = s.evu := rfl
@[simp] theorem modTwr_rck (f : Twr → Twr) (s : State) : (modTwr f s).rck = s.rck := rfl
@[simp] theorem modTwr_cme (f : Twr → Twr) (s : State) : (modTwr f s).cme = s.cme := rfl
@[simp] theorem modTwr_nfu (f : Twr → Twr) (s : State) : (modTwr f s).nfu = s.nfu := rfl
@[simp] theorem modTwr_out (f : Twr → Twr) (s : State) : (modTwr f s).out = s.out := rfl

@[simp] theorem modRwk_pending (f : Rwk → Rwk) (s : State) : (modRwk f s).pending = s.pending := rfl
@[simp] theorem modRwk_now (f : Rwk → Rwk) (s : State) : (modRwk f s).now = s.now := rfl
@[simp] theorem modRwk_draws (f : Rwk → Rwk) (s : State) : (modRwk f s).draws = s.draws := rfl
@[simp] theorem modRwk_fsl (f : Rwk → Rwk) (s : State) : (modRwk f s).fsl = s.fsl := rfl
@[simp] theorem modRwk_rsu (f : Rwk → Rwk) (s : State) : (modRwk f s).rsu = s.rsu := rfl
@[simp] theorem modRwk_groups (f : Rwk → Rwk) (s : State) : (modRwk f s).groups = s.groups := rfl
@[simp] theorem modRwk_adjs (f : Rwk → Rwk) (s : State) : (modRwk f s).adjs = s.adjs := rfl
@[simp] theorem modRwk_dpx (f : Rwk → Rwk) (s : State) : (modRwk f s).dpx = s.dpx := rfl
@[simp] theorem modRwk_twr (f : Rwk → Rwk) (s : State) : (modRwk f s).twr = s.twr := rfl
@[simp] theorem modRwk_rwk (f : Rwk → Rwk) (s : State) : (modRwk f s).rwk = f s.rwk := rfl
@[simp] theorem modRwk_uma (f : Rwk → Rwk) (s : State) : (modRwk f s).uma = s.uma := rfl
@[simp] theorem modRwk_evu (f : Rwk → Rwk) (s : State) : (modRwk f s).evu = s.evu := rfl
@[simp] theorem modRwk_rck (f : Rwk → Rwk) (s : State) : (modRwk f s).rck = s.rck := rfl
@[simp] theorem modRwk_cme (f : Rwk → Rwk) (s : State) : (modRwk f s).cme = s.cme := rfl
@[simp] theorem modRwk_nfu (f : Rwk → Rwk) (s : State) : (modRwk f s).nfu = s.nfu := rfl
@[simp] theorem modRwk_out (f : Rwk → Rwk) (s : State) : (modRwk f s).out = s.out := rfl

@[simp] theorem modUma_pending (f : Uma → Uma) (s : State) : (modUma f s).pending = s.pending := rfl
@[simp] theorem modUma_now (f : Uma → Uma) (s : State) : (modUma f s).now = s.now := rfl
@[simp] theorem modUma_draws (f : Uma → Uma) (s : State) : (modUma f s).draws = s.draws := rfl
@[simp] theorem modUma_fsl (f : Uma → Uma) (s : State) : (modUma f s).fsl = s.fsl := rfl
@[simp] theorem modUma_rsu (f : Uma → Uma) (s : State) : (modUma f s).rsu = s.rsu := rfl
@[simp] theorem modUma_groups (f : Uma → Uma) (s : State) : (modUma f s).groups = s.groups := rfl
@[simp] theorem modUma_adjs (f : Uma → Uma) (s : State) : (modUma f s).adjs = s.adjs := rfl
@[simp] theorem modUma_dpx (f : Uma → Uma) (s : State) : (modUma f s).dpx = s.dpx := rfl
@[simp] theorem modUma_twr (f : Uma → Uma) (s : State) : (modUma f s).twr = s.twr := rfl
@[simp] theorem modUma_rwk (f : Uma → Uma) (s : State) : (modUma f s).rwk = s.rwk := rfl
@[simp] theorem modUma_uma (f : Uma → Uma) (s : State) : (modUma f s).uma = f s.uma := rfl
@[simp] theorem modUma_evu (f : Uma → Uma) (s : State) : (modUma f s).evu = s.evu := rfl
@[simp] theorem modUma_rck (f : Uma → Uma) (s : State) : (modUma f s).rck = s.rck := rfl
@[simp] theorem modUma_cme (f : Uma → Uma) (s : State) : (modUma f s).cme = s.cme := rfl
@[simp] theorem modUma_nfu (f : Uma → Uma) (s : State) : (modUma f s).nfu = s.nfu := rfl
@[simp] theorem modUma_out (f : Uma → Uma) (s : State) : (modUma f s).out = s.out := rfl

@[simp] theorem modEvu_pending (f : Evu → Evu) (s : State) : (modEvu f s).pending = s.pending := rfl
@[simp] theorem modEvu_now (f : Evu → Evu) (s : State) : (modEvu f s).now = s.now := rfl
@[simp] theorem modEvu_draws (f : Evu → Evu) (s : State) : (modEvu f s).draws = s.draws := rfl
@[simp] theorem modEvu_fsl (f : Evu → Evu) (s : State) : (modEvu f s).fsl = s.fsl := rfl
@[simp] theorem modEvu_rsu (f : Evu → Evu) (s : State) : (modEvu f s).rsu = s.rsu := rfl
@[simp] theorem modEvu_groups (f : Evu → Evu) (s : State) : (modEvu f s).groups = s.groups := rfl
@[simp] theorem modEvu_adjs (f : Evu → Evu) (s : State) : (modEvu f s).adjs = s.adjs := rfl
@[simp] theorem modEvu_dpx (f : Evu → Evu) (s : State) : (modEvu f s).dpx = s.dpx := rfl
@[simp] theorem modEvu_twr (f : Evu → Evu) (s : State) : (modEvu f s).twr = s.twr := rfl
@[simp] theorem modEvu_rwk (f : Evu → Evu) (s : State) : (modEvu f s).rwk = s.rwk := rfl
@[simp] theorem modEvu_uma (f : Evu → Evu) (s : State) : (modEvu f s).uma = s.uma := rfl
@[simp] theorem modEvu_evu (f : Evu → Evu) (s : State) : (modEvu f s).evu = f s.evu := rfl
@[simp] theorem modEvu_rck (f : Evu → Evu) (s : State) : (modEvu f s).rck = s.rck := rfl
@[simp] theorem modEvu_cme (f : Evu → Evu) (s : State) : (modEvu f s).cme = s.cme := rfl
@[simp] theorem modEvu_nfu (f : Evu → Evu) (s : State) : (modEvu f s).nfu = s.nfu := rfl
@[simp] theorem modEvu_out (f : Evu → Evu) (s : State) : (modEvu f s).out = s.out := rfl

@[simp] theorem modRck_pending (f : Rck → Rck) (s : State) : (modRck f s).pending = s.pending := rfl
@[simp] theorem modRck_now (f : Rck → Rck) (s : State) : (modRck f s).now = s.now := rfl
@[simp] theorem modRck_draws (f : Rck → Rck) (s : State) : (modRck f s).draws = s.draws := rfl
@[simp] theorem modRck_fsl (f : Rck → Rck) (s : State) : (modRck f s).fsl = s.fsl := rfl
@[simp] theorem modRck_rsu (f : Rck → Rck) (s : State) : (modRck f s).rsu = s.rsu := rfl
@[simp] theorem modRck_groups (f : Rck → Rck) (s : State) : (modRck f s).groups = s.groups := rfl
@[simp] theorem modRck_adjs (f : Rck → Rck) (s : State) : (modRck f s).adjs = s.adjs := rfl
@[simp] theorem modRck_dpx (f : Rck → Rck) (s : State) : (modRck f s).dpx = s.dpx := rfl
@[simp] theorem modRck_twr (f : Rck → Rck) (s : State) : (modRck f s).twr = s.twr := rfl
@[simp] theorem modRck_rwk (f : Rck → Rck) (s : State) : (modRck f s).rwk = s.rwk := rfl
@[simp] theorem modRck_uma (f : Rck → Rck) (s : State) : (modRck f s).uma = s.uma := rfl
@[simp] theorem modRck_evu (f : Rck → Rck) (s : State) : (modRck f s).evu = s.evu := rfl
@[simp] theorem modRck_rck (f : Rck → Rck) (s : State) : (modRck f s).rck = f s.rck := rfl
@[simp] theorem modRck_cme (f : Rck → Rck) (s : State) : (modRck f s).cme = s.cme := rfl
@[simp] theorem modRck_nfu (f : Rck → Rck) (s : State) : (modRck f s).nfu = s.nfu := rfl
@[simp] theorem modRck_out (f : Rck → Rck) (s : State) : (modRck f s).out = s.out := rfl

@[simp] theorem modCme_pending (f : Cme → Cme) (s : State) : (modCme f s).pending = s.pending := rfl
@[simp] theorem modCme_now (f : Cme → Cme) (s : State) : (modCme f s).now = s.now := rfl
@[simp] theorem modCme_draws (f : Cme → Cme) (s : State) : (modCme f s).draws = s.draws := rfl
@[simp] theorem modCme_fsl (f : Cme → Cme) (s : State) : (modCme f s).fsl = s.fsl := rfl
@[simp] theorem modCme_rsu (f : Cme → Cme) (s : State) : (modCme f s).rsu = s.rsu := rfl
@[simp] theorem modCme_groups (f : Cme → Cme) (s : State) : (modCme f s).groups = s.groups := rfl
@[simp] theorem modCme_adjs (f : Cme → Cme) (s : State) : (modCme f s).adjs = s.adjs := rfl
@[simp] theorem modCme_dpx (f : Cme → Cme) (s : State) : (modCme f s).dpx = s.dpx := rfl
@[simp] theorem modCme_twr (f : Cme → Cme) (s : State) : (modCme f s).twr = s.twr := rfl
@[simp] theorem modCme_rwk (f : Cme → Cme) (s : State) : (modCme f s).rwk = s.rwk := rfl
@[simp] theorem modCme_uma (f : Cme → Cme) (s : State) : (modCme f s).uma = s.uma := rfl
@[simp] theorem modCme_evu (f : Cme → Cme) (s : State) : (modCme f s).evu = s.evu := rfl
@[simp] theorem modCme_rck (f : Cme → Cme) (s : State) : (modCme f s).rck = s.rck := rfl
@[simp] theorem modCme_cme (f : Cme → Cme) (s : State) : (modCme f s).cme = f s.cme := rfl
@[simp] theorem modCme_nfu (f : Cme → Cme) (s : State) : (modCme f s).nfu = s.nfu := rfl
@[simp] theorem modCme_out (f : Cme → Cme) (s : State) : (modCme f s).out = s.out := rfl

@[simp] theorem modNfu_pending (f : Nfu → Nfu) (s : State) : (modNfu f s).pending = s.pending := rfl
@[simp] theorem modNfu_now (f : Nfu → Nfu) (s : State) : (modNfu f s).now = s.now := rfl
@[simp] theorem modNfu_draws (f : Nfu → Nfu) (s : State) : (modNfu f s).draws = s.draws := rfl
@[simp] theorem modNfu_fsl (f : Nfu → Nfu) (s : State) : (modNfu f s).fsl = s.fsl := rfl
@[simp] theorem modNfu_rsu (f : Nfu → Nfu) (s : State) : (modNfu f s).rsu = s.rsu := rfl
@[simp] theorem modNfu_groups (f : Nfu → Nfu) (s : State) : (modNfu f s).groups = s.groups := rfl
@[simp] theorem modNfu_adjs (f : Nfu → Nfu) (s : State) : (modNfu f s).adjs = s.adjs := rfl
@[simp] theorem modNfu_dpx (f : Nfu → Nfu) (s : State) : (modNfu f s).dpx = s.dpx := rfl
@[simp] theorem modNfu_twr (f : Nfu → Nfu) (s : State) : (modNfu f s).twr = s.twr := rfl
@[simp] theorem modNfu_rwk (f : Nfu → Nfu) (s : State) : (modNfu f s).rwk = s.rwk := rfl
@[simp] theorem modNfu_uma (f : Nfu → Nfu) (s : State) : (modNfu f s).uma = s.uma := rfl
@[simp] theorem modNfu_evu (f : Nfu → Nfu) (s : State) : (modNfu f s).evu = s.evu := rfl
@[simp] theorem modNfu_rck (f : Nfu → Nfu) (s : State) : (modNfu f s).rck = s.rck := rfl
@[simp] theorem modNfu_cme (f : Nfu → Nfu) (s : State) : (modNfu f s).cme = s.cme := rfl
@[simp] theorem modNfu_nfu (f : Nfu → Nfu) (s : State) : (modNfu f s).nfu = f s.nfu := rfl
@[simp] theorem modNfu_out (f : Nfu → Nfu) (s : State) : (modNfu f s).out = s.out := rfl

@[simp] theorem modOut_pending (f : Out → Out) (s : State) : (modOut f s).pending = s.pending := rfl
@[simp] theorem modOut_now (f : Out → Out) (s : State) : (modOut f s).now = s.now := rfl
@[simp] theorem modOut_draws (f : Out → Out) (s : State) : (modOut f s).draws = s.draws := rfl
@[simp] theorem modOut_fsl (f : Out → Out) (s : State) : (modOut f s).fsl = s.fsl := rfl
@[simp] theorem modOut_rsu (f : Out → Out) (s : State) : (modOut f s).rsu = s.rsu := rfl
@[simp] theorem modOut_groups (f : Out → Out) (s : State) : (modOut f s).groups = s.groups := rfl
@[simp] theorem modOut_adjs (f : Out → Out) (s : State) : (modOut f s).adjs = s.adjs := rfl
@[simp] theorem modOut_dpx (f : Out → Out) (s : State) : (modOut f s).dpx = s.dpx := rfl
@[simp] theorem modOut_twr (f : Out → Out) (s : State) : (modOut f s).twr = s.twr := rfl
@[simp] theorem modOut_rwk (f : Out → Out) (s : State) : (modOut f s).rwk = s.rwk := rfl
@[simp] theorem modOut_uma (f : Out → Out) (s : State) : (modOut f s).uma = s.uma := rfl
@[simp] theorem modOut_evu (f : Out → Out) (s : State) : (modOut f s).evu = s.evu := rfl
@[simp] theorem modOut_rck (f : Out → Out) (s : State) : (modOut f s).rck = s.rck := rfl
@[simp] theorem modOut_cme (f : Out → Out) (s : State) : (modOut f s).cme = s.cme := rfl
@[simp] theorem modOut_nfu (f : Out → Out) (s : State) : (modOut f s).nfu = s.nfu := rfl
@[simp] theorem modOut_out (f : Out → Out) (s : State) : (modOut f s).out = f s.out := rfl

@[simp] theorem setNow_pending (t : Nat) (s : State) : (setNow t s).pending = s.pending := rfl
@[simp] theorem setNow_now (t : Nat) (s : State) : (setNow t s).now = t := rfl
@[simp] theorem setNow_draws (t : Nat) (s : State) : (setNow t s).draws = s.draws := rfl
@[simp] theorem setNow_fsl (t : Nat) (s : State) : (setNow t s).fsl = s.fsl := rfl
@[simp] theorem setNow_rsu (t : Nat) (s : State) : (setNow t s).rsu = s.rsu := rfl
@[simp] theorem setNow_groups (t : Nat) (s : State) : (setNow t s).groups = s.groups := rfl
@[simp] theorem setNow_adjs (t : Nat) (s : State) : (setNow t s).adjs = s.adjs := rfl
@[simp] theorem setNow_dpx (t : Nat) (s : State) : (setNow t s).dpx = s.dpx := rfl
@[simp] theorem setNow_twr (t : Nat) (s : State) : (setNow t s).twr = s.twr := rfl
@[simp] theorem setNow_rwk (t : Nat) (s : State) : (setNow t s).rwk = s.rwk := rfl
@[simp] theorem setNow_uma (t : Nat) (s : State) : (setNow t s).uma = s.uma := rfl
@[simp] theorem setNow_evu (t : Nat) (s : State) : (setNow t s).evu = s.evu := rfl
@[simp] theorem setNow_rck (t : Nat) (s : State) : (setNow t s).rck = s.rck := rfl
@[simp] theorem setNow_cme (t : Nat) (s : State) : (setNow t s).cme = s.cme := rfl
@[simp] theorem setNow_nfu (t : Nat) (s : State) : (setNow t s).nfu = s.nfu := rfl
@[simp] theorem setNow_out (t : Nat) (s : State) : (setNow t s).out = s.out := rfl

@[simp] theorem draw_pending (s : State) : (draw s).pending = s.pending := rfl
@[simp] theorem draw_now (s : State) : (draw s).now = s.now := rfl
@[simp] theorem draw_draws (s : State) : (draw s).draws = s.draws + 1 := rfl
@[simp] theorem draw_fsl (s : State) : (draw s).fsl = s.fsl := rfl
@[simp] theorem draw_rsu (s : State) : (draw s).rsu = s.rsu := rfl
@[simp] theorem draw_groups (s : State) : (draw s).groups = s.groups := rfl
@[simp] theorem draw_adjs (s : State) : (draw s).adjs = s.adjs := rfl
@[simp] theorem draw_dpx (s : State) : (draw s).dpx = s.dpx := rfl
@[simp] theorem draw_twr (s : State) : (draw s).twr = s.twr := rfl
@[simp] theorem draw_rwk (s : State) : (draw s).rwk = s.rwk := rfl
@[simp] theorem draw_uma (s : State) : (draw s).uma = s.uma := rfl
@[simp] theorem draw_evu (s : State) : (draw s).evu = s.evu := rfl
@[simp] theorem draw_rck (s : State) : (draw s).rck = s.rck := rfl
@[simp] theorem draw_cme (s : State) : (draw s).cme = s.cme := rfl
@[simp] theorem draw_nfu (s : State) : (draw s).nfu = s.nfu := rfl
@[simp] theorem draw_out (s : State) : (draw s).out = s.out := rfl

end Sys2Proof.Machine
end

