-- ==== Sys2Proof/Laws/Tables.lean ====
section
/-!
SUPPORT. The tables: reading after writing, and that every write keeps the canonical form; ordered sets of numbers;
reading a record after writing one.
-/

namespace Sys2Proof.Machine

variable {α : Type}

/-! ### Reading after writing -/

theorem tableGet_tableErase (d : α) (k j : Nat) (t : Table α) :
    tableGet d (tableErase k t) j = if j = k then d else tableGet d t j := by
  induction t with
  | nil => simp [tableErase, tableGet]
  | cons e t ih =>
    obtain ⟨i, v⟩ := e
    by_cases h : i = k <;> by_cases h' : j = k <;> by_cases h'' : i = j <;>
      simp_all [tableErase, tableGet]

theorem tableGet_tablePut (d : α) (k j : Nat) (v : α) (t : Table α) :
    tableGet d (tablePut k v t) j = if j = k then v else tableGet d t j := by
  induction t with
  | nil =>
    by_cases h : k = j
    · subst h; simp [tablePut, tableGet]
    · have h' : ¬ j = k := fun e => h e.symm
      simp [tablePut, tableGet, h, h']
  | cons e t ih =>
    obtain ⟨i, w⟩ := e
    unfold tablePut
    by_cases hj : j = k
    · subst hj
      split
      · simp [tableGet]
      · split
        · simp [tableGet]
        · rename_i h1 h2
          have h3 : ¬ i = j := fun e => h2 e.symm
          simp [tableGet, h3, ih]
    · have hj' : ¬ k = j := fun e => hj e.symm
      split
      · simp [tableGet, hj']
      · split
        · rename_i h1 h2
          subst h2
          simp [tableGet, hj']
        · simp [tableGet, hj, ih]

/-- What a table holds after a write. -/
theorem tableGet_tableSet [DecidableEq α] (d : α) (k j : Nat) (v : α) (t : Table α) :
    tableGet d (tableSet d k v t) j = if j = k then v else tableGet d t j := by
  unfold tableSet
  split
  · rename_i h; rw [tableGet_tableErase]; simp [h]
  · rw [tableGet_tablePut]

/-! ### The canonical form -/

theorem tableErase_subset (k : Nat) (t : Table α) : ∀ e ∈ tableErase k t, e ∈ t := by
  induction t with
  | nil => simp [tableErase]
  | cons e t ih =>
    obtain ⟨i, v⟩ := e
    intro x hx
    by_cases h : i = k
    · simp only [tableErase, h, if_true] at hx; exact List.mem_cons_of_mem _ (ih x hx)
    · simp only [tableErase, h, if_false, List.mem_cons] at hx
      rcases hx with rfl | hx
      · simp
      · exact List.mem_cons_of_mem _ (ih x hx)

theorem tablePut_subset (k : Nat) (v : α) (t : Table α) : ∀ e ∈ tablePut k v t, e = (k, v) ∨ e ∈ t := by
  induction t with
  | nil => simp [tablePut]
  | cons e t ih =>
    obtain ⟨i, w⟩ := e
    intro x hx
    unfold tablePut at hx
    split at hx
    · simpa using hx
    · split at hx
      · simp only [List.mem_cons] at hx ⊢; tauto
      · simp only [List.mem_cons] at hx ⊢
        rcases hx with rfl | hx
        · simp
        · rcases ih x hx with h | h <;> simp [h]

theorem tableWf_tableErase [DecidableEq α] (d : α) (k : Nat) (t : Table α) (h : tableWf d t = true) :
    tableWf d (tableErase k t) = true := by
  induction t with
  | nil => simp [tableErase, tableWf]
  | cons e t ih =>
    obtain ⟨i, v⟩ := e
    simp only [tableWf, Bool.and_eq_true, decide_eq_true_eq, List.all_eq_true] at h
    obtain ⟨⟨hv, hlt⟩, ht⟩ := h
    by_cases hk : i = k
    · simp [tableErase, hk, ih ht]
    · simp only [tableErase, hk, if_false, tableWf, Bool.and_eq_true, decide_eq_true_eq, List.all_eq_true]
      exact ⟨⟨hv, fun x hx => hlt x (tableErase_subset k t x hx)⟩, ih ht⟩

theorem tableWf_tablePut [DecidableEq α] (d : α) (k : Nat) (v : α) (t : Table α) (hd : v ≠ d)
    (h : tableWf d t = true) : tableWf d (tablePut k v t) = true := by
  induction t with
  | nil => simp [tablePut, tableWf, hd]
  | cons e t ih =>
    obtain ⟨i, w⟩ := e
    simp only [tableWf, Bool.and_eq_true, decide_eq_true_eq, List.all_eq_true] at h
    obtain ⟨⟨hv, hlt⟩, ht⟩ := h
    unfold tablePut
    split
    · rename_i hki
      simp only [tableWf, Bool.and_eq_true, decide_eq_true_eq, List.all_eq_true, List.mem_cons]
      refine ⟨⟨hd, ?_⟩, ⟨hv, hlt⟩, ht⟩
      rintro x (rfl | hx)
      · exact hki
      · exact lt_trans hki (hlt x hx)
    · split
      · rename_i hki
        subst hki
        simp only [tableWf, Bool.and_eq_true, decide_eq_true_eq, List.all_eq_true]
        exact ⟨⟨hd, hlt⟩, ht⟩
      · simp only [tableWf, Bool.and_eq_true, decide_eq_true_eq, List.all_eq_true]
        refine ⟨⟨hv, ?_⟩, ih ht⟩
        intro x hx
        rcases tablePut_subset k v t x hx with rfl | h
        · show i < k
          omega
        · exact hlt x h

/-- Every write keeps the canonical form. -/
theorem tableWf_tableSet [DecidableEq α] (d : α) (k : Nat) (v : α) (t : Table α) (h : tableWf d t = true) :
    tableWf d (tableSet d k v t) = true := by
  unfold tableSet
  split
  · exact tableWf_tableErase d k t h
  · rename_i hv; exact tableWf_tablePut d k v t hv h

/-! ### Ordered sets of numbers -/

theorem mem_setInsert (n m : Nat) (l : List Nat) : m ∈ setInsert n l ↔ m = n ∨ m ∈ l := by
  induction l with
  | nil => simp [setInsert]
  | cons a l ih =>
    unfold setInsert
    split
    · simp
    · split
      · simp_all
      · simp only [List.mem_cons, ih]; tauto

theorem mem_setErase (n m : Nat) (l : List Nat) : m ∈ setErase n l ↔ m ∈ l ∧ m ≠ n := by
  simp [setErase]

/-! ### Reading a record after writing one -/

@[simp] theorem group_setGroup (g k : Nat) (v : Group) (s : State) :
    (setGroup g v s).group k = if k = g then v else s.group k := by
  simp [setGroup, State.group, tableGet_tableSet]

@[simp] theorem adj_setAdj (a k : Nat) (v : Adj) (s : State) :
    (setAdj a v s).adj k = if k = a then v else s.adj k := by
  simp [setAdj, State.adj, tableGet_tableSet]

@[simp] theorem depList_setDepList (u k : Nat) (v : List Nat) (s : State) :
    (setDepList u v s).depList k = if k = u then v else s.depList k := by
  simp [setDepList, State.depList, tableGet_tableSet]

@[simp] theorem job_setJob (u k : Nat) (v : Option Job) (s : State) :
    (setJob u v s).job k = if k = u then v else s.job k := by
  simp [setJob, State.job, tableGet_tableSet]

@[simp] theorem mon_setMon (n k : Nat) (v : Monitor) (s : State) :
    (setMon n v s).mon k = if k = n then v else s.mon k := by
  simp [setMon, State.mon, tableGet_tableSet]

@[simp] theorem line_setLine (l k : Nat) (v : Line) (s : State) :
    (setLine l v s).line k = if k = l then v else s.line k := by
  simp [setLine, State.line, tableGet_tableSet]

@[simp] theorem port_setPort (p k : Nat) (v : Port) (s : State) :
    (setPort p v s).port k = if k = p then v else s.port k := by
  simp [setPort, State.port, tableGet_tableSet]

@[simp] theorem source_setSource (r k : Nat) (v : Source) (s : State) :
    (setSource r v s).source k = if k = r then v else s.source k := by
  simp [setSource, State.source, tableGet_tableSet]

@[simp] theorem substitution_setSubstitution (u k v : Nat) (s : State) :
    (setSubstitution u v s).substitution k = if k = u then v else s.substitution k := by
  simp [setSubstitution, State.substitution, tableGet_tableSet]

/-- A raise sets one source's pending flag and nothing else (R175). -/
@[simp] theorem source_raise (r k : Nat) (s : State) :
    (raise r s).source k = if k = r then { s.source k with pending := true } else s.source k := by
  unfold raise
  rw [source_setSource]
  split <;> simp_all

end Sys2Proof.Machine
end

