-- ==== Sys2Proof/Laws/Frames.lean ====
section
/-!
SUPPORT. Frames: for each shared operation, the parts of the state it never changes. A frame of an operation stands
under `<operation>_frame` and simplifies those parts away.
-/

namespace Sys2Proof.Machine
open Sys2Proof

theorem forEach_keeps {α : Type} (π : State → α) (l : List Nat) (f : Nat → State → State)
    (h : ∀ n s, π (f n s) = π s) (s : State) : π (forEach l f s) = π s := by
  unfold forEach
  induction l generalizing s with
  | nil => rfl
  | cons a l ih => rw [List.foldl_cons, ih, h]

@[simp] theorem forEach_pending (l : List Nat) (f : Nat → State → State) (h : ∀ n s, (f n s).pending = s.pending) (s : State) :
    (forEach l f s).pending = s.pending := forEach_keeps (·.pending) l f h s
@[simp] theorem forEach_now (l : List Nat) (f : Nat → State → State) (h : ∀ n s, (f n s).now = s.now) (s : State) :
    (forEach l f s).now = s.now := forEach_keeps (·.now) l f h s
@[simp] theorem forEach_draws (l : List Nat) (f : Nat → State → State) (h : ∀ n s, (f n s).draws = s.draws) (s : State) :
    (forEach l f s).draws = s.draws := forEach_keeps (·.draws) l f h s
@[simp] theorem forEach_fsl (l : List Nat) (f : Nat → State → State) (h : ∀ n s, (f n s).fsl = s.fsl) (s : State) :
    (forEach l f s).fsl = s.fsl := forEach_keeps (·.fsl) l f h s
@[simp] theorem forEach_rsu (l : List Nat) (f : Nat → State → State) (h : ∀ n s, (f n s).rsu = s.rsu) (s : State) :
    (forEach l f s).rsu = s.rsu := forEach_keeps (·.rsu) l f h s
@[simp] theorem forEach_groups (l : List Nat) (f : Nat → State → State) (h : ∀ n s, (f n s).groups = s.groups) (s : State) :
    (forEach l f s).groups = s.groups := forEach_keeps (·.groups) l f h s
@[simp] theorem forEach_adjs (l : List Nat) (f : Nat → State → State) (h : ∀ n s, (f n s).adjs = s.adjs) (s : State) :
    (forEach l f s).adjs = s.adjs := forEach_keeps (·.adjs) l f h s
@[simp] theorem forEach_dpx (l : List Nat) (f : Nat → State → State) (h : ∀ n s, (f n s).dpx = s.dpx) (s : State) :
    (forEach l f s).dpx = s.dpx := forEach_keeps (·.dpx) l f h s
@[simp] theorem forEach_twr (l : List Nat) (f : Nat → State → State) (h : ∀ n s, (f n s).twr = s.twr) (s : State) :
    (forEach l f s).twr = s.twr := forEach_keeps (·.twr) l f h s
@[simp] theorem forEach_rwk (l : List Nat) (f : Nat → State → State) (h : ∀ n s, (f n s).rwk = s.rwk) (s : State) :
    (forEach l f s).rwk = s.rwk := forEach_keeps (·.rwk) l f h s
@[simp] theorem forEach_uma (l : List Nat) (f : Nat → State → State) (h : ∀ n s, (f n s).uma = s.uma) (s : State) :
    (forEach l f s).uma = s.uma := forEach_keeps (·.uma) l f h s
@[simp] theorem forEach_evu (l : List Nat) (f : Nat → State → State) (h : ∀ n s, (f n s).evu = s.evu) (s : State) :
    (forEach l f s).evu = s.evu := forEach_keeps (·.evu) l f h s
@[simp] theorem forEach_rck (l : List Nat) (f : Nat → State → State) (h : ∀ n s, (f n s).rck = s.rck) (s : State) :
    (forEach l f s).rck = s.rck := forEach_keeps (·.rck) l f h s
@[simp] theorem forEach_cme (l : List Nat) (f : Nat → State → State) (h : ∀ n s, (f n s).cme = s.cme) (s : State) :
    (forEach l f s).cme = s.cme := forEach_keeps (·.cme) l f h s
@[simp] theorem forEach_nfu (l : List Nat) (f : Nat → State → State) (h : ∀ n s, (f n s).nfu = s.nfu) (s : State) :
    (forEach l f s).nfu = s.nfu := forEach_keeps (·.nfu) l f h s
@[simp] theorem forEach_out (l : List Nat) (f : Nat → State → State) (h : ∀ n s, (f n s).out = s.out) (s : State) :
    (forEach l f s).out = s.out := forEach_keeps (·.out) l f h s

/-! ### Ops -/

@[simp] theorem setGroup_frame (g : Nat) (v : Group) (x0 : State) :
    (setGroup g v x0).pending = x0.pending ∧ (setGroup g v x0).now = x0.now ∧ (setGroup g v x0).draws = x0.draws
      ∧ (setGroup g v x0).fsl = x0.fsl ∧ (setGroup g v x0).rsu = x0.rsu ∧ (setGroup g v x0).adjs = x0.adjs
      ∧ (setGroup g v x0).dpx = x0.dpx ∧ (setGroup g v x0).twr = x0.twr ∧ (setGroup g v x0).rwk = x0.rwk
      ∧ (setGroup g v x0).uma = x0.uma ∧ (setGroup g v x0).evu = x0.evu ∧ (setGroup g v x0).rck = x0.rck
      ∧ (setGroup g v x0).cme = x0.cme ∧ (setGroup g v x0).nfu = x0.nfu ∧ (setGroup g v x0).out = x0.out := by
  simp [setGroup]

@[simp] theorem setAdj_frame (a : Nat) (v : Adj) (x0 : State) :
    (setAdj a v x0).pending = x0.pending ∧ (setAdj a v x0).now = x0.now ∧ (setAdj a v x0).draws = x0.draws
      ∧ (setAdj a v x0).fsl = x0.fsl ∧ (setAdj a v x0).rsu = x0.rsu ∧ (setAdj a v x0).groups = x0.groups
      ∧ (setAdj a v x0).dpx = x0.dpx ∧ (setAdj a v x0).twr = x0.twr ∧ (setAdj a v x0).rwk = x0.rwk
      ∧ (setAdj a v x0).uma = x0.uma ∧ (setAdj a v x0).evu = x0.evu ∧ (setAdj a v x0).rck = x0.rck
      ∧ (setAdj a v x0).cme = x0.cme ∧ (setAdj a v x0).nfu = x0.nfu ∧ (setAdj a v x0).out = x0.out := by
  simp [setAdj]

@[simp] theorem setDepList_frame (u : Nat) (v : List Nat) (x0 : State) :
    (setDepList u v x0).pending = x0.pending ∧ (setDepList u v x0).now = x0.now
      ∧ (setDepList u v x0).draws = x0.draws ∧ (setDepList u v x0).fsl = x0.fsl ∧ (setDepList u v x0).rsu = x0.rsu
      ∧ (setDepList u v x0).groups = x0.groups ∧ (setDepList u v x0).adjs = x0.adjs
      ∧ (setDepList u v x0).twr = x0.twr ∧ (setDepList u v x0).rwk = x0.rwk ∧ (setDepList u v x0).uma = x0.uma
      ∧ (setDepList u v x0).evu = x0.evu ∧ (setDepList u v x0).rck = x0.rck ∧ (setDepList u v x0).cme = x0.cme
      ∧ (setDepList u v x0).nfu = x0.nfu ∧ (setDepList u v x0).out = x0.out := by
  simp [setDepList]

@[simp] theorem setJob_frame (u : Nat) (v : Option Job) (x0 : State) :
    (setJob u v x0).pending = x0.pending ∧ (setJob u v x0).now = x0.now ∧ (setJob u v x0).draws = x0.draws
      ∧ (setJob u v x0).fsl = x0.fsl ∧ (setJob u v x0).rsu = x0.rsu ∧ (setJob u v x0).groups = x0.groups
      ∧ (setJob u v x0).adjs = x0.adjs ∧ (setJob u v x0).dpx = x0.dpx ∧ (setJob u v x0).twr = x0.twr
      ∧ (setJob u v x0).uma = x0.uma ∧ (setJob u v x0).evu = x0.evu ∧ (setJob u v x0).rck = x0.rck
      ∧ (setJob u v x0).cme = x0.cme ∧ (setJob u v x0).nfu = x0.nfu ∧ (setJob u v x0).out = x0.out := by
  simp [setJob]

@[simp] theorem setMon_frame (n : Nat) (v : Monitor) (x0 : State) :
    (setMon n v x0).pending = x0.pending ∧ (setMon n v x0).now = x0.now ∧ (setMon n v x0).draws = x0.draws
      ∧ (setMon n v x0).fsl = x0.fsl ∧ (setMon n v x0).rsu = x0.rsu ∧ (setMon n v x0).groups = x0.groups
      ∧ (setMon n v x0).adjs = x0.adjs ∧ (setMon n v x0).dpx = x0.dpx ∧ (setMon n v x0).twr = x0.twr
      ∧ (setMon n v x0).rwk = x0.rwk ∧ (setMon n v x0).evu = x0.evu ∧ (setMon n v x0).rck = x0.rck
      ∧ (setMon n v x0).cme = x0.cme ∧ (setMon n v x0).nfu = x0.nfu ∧ (setMon n v x0).out = x0.out := by
  simp [setMon]

@[simp] theorem setLine_frame (l : Nat) (v : Line) (x0 : State) :
    (setLine l v x0).pending = x0.pending ∧ (setLine l v x0).now = x0.now ∧ (setLine l v x0).draws = x0.draws
      ∧ (setLine l v x0).fsl = x0.fsl ∧ (setLine l v x0).rsu = x0.rsu ∧ (setLine l v x0).groups = x0.groups
      ∧ (setLine l v x0).adjs = x0.adjs ∧ (setLine l v x0).dpx = x0.dpx ∧ (setLine l v x0).twr = x0.twr
      ∧ (setLine l v x0).rwk = x0.rwk ∧ (setLine l v x0).uma = x0.uma ∧ (setLine l v x0).rck = x0.rck
      ∧ (setLine l v x0).cme = x0.cme ∧ (setLine l v x0).nfu = x0.nfu ∧ (setLine l v x0).out = x0.out := by
  simp [setLine]

@[simp] theorem setPort_frame (p : Nat) (v : Port) (x0 : State) :
    (setPort p v x0).pending = x0.pending ∧ (setPort p v x0).now = x0.now ∧ (setPort p v x0).draws = x0.draws
      ∧ (setPort p v x0).fsl = x0.fsl ∧ (setPort p v x0).rsu = x0.rsu ∧ (setPort p v x0).groups = x0.groups
      ∧ (setPort p v x0).adjs = x0.adjs ∧ (setPort p v x0).dpx = x0.dpx ∧ (setPort p v x0).twr = x0.twr
      ∧ (setPort p v x0).rwk = x0.rwk ∧ (setPort p v x0).uma = x0.uma ∧ (setPort p v x0).rck = x0.rck
      ∧ (setPort p v x0).cme = x0.cme ∧ (setPort p v x0).nfu = x0.nfu ∧ (setPort p v x0).out = x0.out := by
  simp [setPort]

@[simp] theorem setSource_frame (r : Nat) (v : Source) (x0 : State) :
    (setSource r v x0).pending = x0.pending ∧ (setSource r v x0).now = x0.now ∧ (setSource r v x0).draws = x0.draws
      ∧ (setSource r v x0).fsl = x0.fsl ∧ (setSource r v x0).rsu = x0.rsu ∧ (setSource r v x0).groups = x0.groups
      ∧ (setSource r v x0).adjs = x0.adjs ∧ (setSource r v x0).dpx = x0.dpx ∧ (setSource r v x0).twr = x0.twr
      ∧ (setSource r v x0).rwk = x0.rwk ∧ (setSource r v x0).uma = x0.uma ∧ (setSource r v x0).evu = x0.evu
      ∧ (setSource r v x0).rck = x0.rck ∧ (setSource r v x0).cme = x0.cme ∧ (setSource r v x0).out = x0.out := by
  simp [setSource]

@[simp] theorem setSubstitution_frame (u : Nat) (v : Nat) (x0 : State) :
    (setSubstitution u v x0).pending = x0.pending ∧ (setSubstitution u v x0).now = x0.now
      ∧ (setSubstitution u v x0).draws = x0.draws ∧ (setSubstitution u v x0).fsl = x0.fsl
      ∧ (setSubstitution u v x0).groups = x0.groups ∧ (setSubstitution u v x0).adjs = x0.adjs
      ∧ (setSubstitution u v x0).dpx = x0.dpx ∧ (setSubstitution u v x0).twr = x0.twr
      ∧ (setSubstitution u v x0).rwk = x0.rwk ∧ (setSubstitution u v x0).uma = x0.uma
      ∧ (setSubstitution u v x0).evu = x0.evu ∧ (setSubstitution u v x0).rck = x0.rck
      ∧ (setSubstitution u v x0).cme = x0.cme ∧ (setSubstitution u v x0).nfu = x0.nfu
      ∧ (setSubstitution u v x0).out = x0.out := by
  simp [setSubstitution]

@[simp] theorem modMon_frame (n : Nat) (f : Monitor → Monitor) (s : State) :
    (modMon n f s).pending = s.pending ∧ (modMon n f s).now = s.now ∧ (modMon n f s).draws = s.draws
      ∧ (modMon n f s).fsl = s.fsl ∧ (modMon n f s).rsu = s.rsu ∧ (modMon n f s).groups = s.groups
      ∧ (modMon n f s).adjs = s.adjs ∧ (modMon n f s).dpx = s.dpx ∧ (modMon n f s).twr = s.twr
      ∧ (modMon n f s).rwk = s.rwk ∧ (modMon n f s).evu = s.evu ∧ (modMon n f s).rck = s.rck
      ∧ (modMon n f s).cme = s.cme ∧ (modMon n f s).nfu = s.nfu ∧ (modMon n f s).out = s.out := by
  simp [modMon]

@[simp] theorem modGroup_frame (g : Nat) (f : Group → Group) (s : State) :
    (modGroup g f s).pending = s.pending ∧ (modGroup g f s).now = s.now ∧ (modGroup g f s).draws = s.draws
      ∧ (modGroup g f s).fsl = s.fsl ∧ (modGroup g f s).rsu = s.rsu ∧ (modGroup g f s).adjs = s.adjs
      ∧ (modGroup g f s).dpx = s.dpx ∧ (modGroup g f s).twr = s.twr ∧ (modGroup g f s).rwk = s.rwk
      ∧ (modGroup g f s).uma = s.uma ∧ (modGroup g f s).evu = s.evu ∧ (modGroup g f s).rck = s.rck
      ∧ (modGroup g f s).cme = s.cme ∧ (modGroup g f s).nfu = s.nfu ∧ (modGroup g f s).out = s.out := by
  simp [modGroup]

@[simp] theorem modAdj_frame (a : Nat) (f : Adj → Adj) (s : State) :
    (modAdj a f s).pending = s.pending ∧ (modAdj a f s).now = s.now ∧ (modAdj a f s).draws = s.draws
      ∧ (modAdj a f s).fsl = s.fsl ∧ (modAdj a f s).rsu = s.rsu ∧ (modAdj a f s).groups = s.groups
      ∧ (modAdj a f s).dpx = s.dpx ∧ (modAdj a f s).twr = s.twr ∧ (modAdj a f s).rwk = s.rwk
      ∧ (modAdj a f s).uma = s.uma ∧ (modAdj a f s).evu = s.evu ∧ (modAdj a f s).rck = s.rck
      ∧ (modAdj a f s).cme = s.cme ∧ (modAdj a f s).nfu = s.nfu ∧ (modAdj a f s).out = s.out := by
  simp [modAdj]

@[simp] theorem modPort_frame (p : Nat) (f : Port → Port) (s : State) :
    (modPort p f s).pending = s.pending ∧ (modPort p f s).now = s.now ∧ (modPort p f s).draws = s.draws
      ∧ (modPort p f s).fsl = s.fsl ∧ (modPort p f s).rsu = s.rsu ∧ (modPort p f s).groups = s.groups
      ∧ (modPort p f s).adjs = s.adjs ∧ (modPort p f s).dpx = s.dpx ∧ (modPort p f s).twr = s.twr
      ∧ (modPort p f s).rwk = s.rwk ∧ (modPort p f s).uma = s.uma ∧ (modPort p f s).rck = s.rck
      ∧ (modPort p f s).cme = s.cme ∧ (modPort p f s).nfu = s.nfu ∧ (modPort p f s).out = s.out := by
  simp [modPort]

@[simp] theorem raise_frame (r : Nat) (s : State) :
    (raise r s).pending = s.pending ∧ (raise r s).now = s.now ∧ (raise r s).draws = s.draws
      ∧ (raise r s).fsl = s.fsl ∧ (raise r s).rsu = s.rsu ∧ (raise r s).groups = s.groups
      ∧ (raise r s).adjs = s.adjs ∧ (raise r s).dpx = s.dpx ∧ (raise r s).twr = s.twr ∧ (raise r s).rwk = s.rwk
      ∧ (raise r s).uma = s.uma ∧ (raise r s).evu = s.evu ∧ (raise r s).rck = s.rck ∧ (raise r s).cme = s.cme
      ∧ (raise r s).out = s.out := by
  simp [raise]


/-! ### Flags -/

@[simp] theorem vectorFor_frame (before : List Nat) (v : Nat) (s : State) :
    (vectorFor before v s).pending = s.pending ∧ (vectorFor before v s).now = s.now
      ∧ (vectorFor before v s).draws = s.draws ∧ (vectorFor before v s).fsl = s.fsl
      ∧ (vectorFor before v s).rsu = s.rsu ∧ (vectorFor before v s).groups = s.groups
      ∧ (vectorFor before v s).adjs = s.adjs ∧ (vectorFor before v s).dpx = s.dpx
      ∧ (vectorFor before v s).twr = s.twr ∧ (vectorFor before v s).rwk = s.rwk ∧ (vectorFor before v s).uma = s.uma
      ∧ (vectorFor before v s).evu = s.evu ∧ (vectorFor before v s).rck = s.rck ∧ (vectorFor before v s).cme = s.cme
      ∧ (vectorFor before v s).out = s.out := by
  generalize ht : (vectorFor before v s) = t
  unfold vectorFor at ht
  repeat' split at ht
  all_goals
    (try subst_vars)
    simp

@[simp] theorem flushVectors_frame (before : List Nat) (s : State) :
    (flushVectors before s).pending = s.pending ∧ (flushVectors before s).now = s.now
      ∧ (flushVectors before s).draws = s.draws ∧ (flushVectors before s).fsl = s.fsl
      ∧ (flushVectors before s).rsu = s.rsu ∧ (flushVectors before s).groups = s.groups
      ∧ (flushVectors before s).adjs = s.adjs ∧ (flushVectors before s).dpx = s.dpx
      ∧ (flushVectors before s).twr = s.twr ∧ (flushVectors before s).rwk = s.rwk
      ∧ (flushVectors before s).uma = s.uma ∧ (flushVectors before s).evu = s.evu
      ∧ (flushVectors before s).rck = s.rck ∧ (flushVectors before s).cme = s.cme
      ∧ (flushVectors before s).out = s.out := by
  simp [flushVectors]


/-! ### Walker -/

@[simp] theorem startWalker_frame (s : State) :
    (startWalker s).pending = s.pending ∧ (startWalker s).now = s.now ∧ (startWalker s).draws = s.draws
      ∧ (startWalker s).fsl = s.fsl ∧ (startWalker s).rsu = s.rsu ∧ (startWalker s).groups = s.groups
      ∧ (startWalker s).adjs = s.adjs ∧ (startWalker s).dpx = s.dpx ∧ (startWalker s).rwk = s.rwk
      ∧ (startWalker s).uma = s.uma ∧ (startWalker s).evu = s.evu ∧ (startWalker s).rck = s.rck
      ∧ (startWalker s).cme = s.cme ∧ (startWalker s).nfu = s.nfu ∧ (startWalker s).out = s.out := by
  generalize ht : (startWalker s) = t
  unfold startWalker at ht
  repeat' split at ht
  all_goals
    (try subst_vars)
    simp

@[simp] theorem startEngine_frame (s : State) :
    (startEngine s).pending = s.pending ∧ (startEngine s).now = s.now ∧ (startEngine s).draws = s.draws
      ∧ (startEngine s).fsl = s.fsl ∧ (startEngine s).rsu = s.rsu ∧ (startEngine s).groups = s.groups
      ∧ (startEngine s).adjs = s.adjs ∧ (startEngine s).dpx = s.dpx ∧ (startEngine s).rwk = s.rwk
      ∧ (startEngine s).uma = s.uma ∧ (startEngine s).evu = s.evu ∧ (startEngine s).rck = s.rck
      ∧ (startEngine s).cme = s.cme ∧ (startEngine s).nfu = s.nfu ∧ (startEngine s).out = s.out := by
  simp [startEngine]

@[simp] theorem startNext_frame (s : State) :
    (startNext s).pending = s.pending ∧ (startNext s).now = s.now ∧ (startNext s).draws = s.draws
      ∧ (startNext s).fsl = s.fsl ∧ (startNext s).rsu = s.rsu ∧ (startNext s).groups = s.groups
      ∧ (startNext s).adjs = s.adjs ∧ (startNext s).dpx = s.dpx ∧ (startNext s).rwk = s.rwk
      ∧ (startNext s).uma = s.uma ∧ (startNext s).evu = s.evu ∧ (startNext s).rck = s.rck
      ∧ (startNext s).cme = s.cme ∧ (startNext s).nfu = s.nfu ∧ (startNext s).out = s.out := by
  generalize ht : (startNext s) = t
  unfold startNext at ht
  dsimp only at ht
  repeat' split at ht
  all_goals
    (try subst_vars)
    simp

@[simp] theorem claimWalker_frame (s : State) :
    (claimWalker s).pending = s.pending ∧ (claimWalker s).now = s.now ∧ (claimWalker s).draws = s.draws
      ∧ (claimWalker s).fsl = s.fsl ∧ (claimWalker s).rsu = s.rsu ∧ (claimWalker s).groups = s.groups
      ∧ (claimWalker s).adjs = s.adjs ∧ (claimWalker s).dpx = s.dpx ∧ (claimWalker s).rwk = s.rwk
      ∧ (claimWalker s).uma = s.uma ∧ (claimWalker s).evu = s.evu ∧ (claimWalker s).rck = s.rck
      ∧ (claimWalker s).cme = s.cme ∧ (claimWalker s).nfu = s.nfu ∧ (claimWalker s).out = s.out := by
  generalize ht : (claimWalker s) = t
  unfold claimWalker at ht
  repeat' split at ht
  all_goals
    (try subst_vars)
    simp

@[simp] theorem claimEngine_frame (s : State) :
    (claimEngine s).pending = s.pending ∧ (claimEngine s).now = s.now ∧ (claimEngine s).draws = s.draws
      ∧ (claimEngine s).fsl = s.fsl ∧ (claimEngine s).rsu = s.rsu ∧ (claimEngine s).groups = s.groups
      ∧ (claimEngine s).adjs = s.adjs ∧ (claimEngine s).dpx = s.dpx ∧ (claimEngine s).rwk = s.rwk
      ∧ (claimEngine s).uma = s.uma ∧ (claimEngine s).evu = s.evu ∧ (claimEngine s).rck = s.rck
      ∧ (claimEngine s).cme = s.cme ∧ (claimEngine s).nfu = s.nfu ∧ (claimEngine s).out = s.out := by
  generalize ht : (claimEngine s) = t
  unfold claimEngine at ht
  repeat' split at ht
  all_goals
    (try subst_vars)
    simp

@[simp] theorem takeJob_frame (u : Nat) (s : State) :
    (takeJob u s).pending = s.pending ∧ (takeJob u s).now = s.now ∧ (takeJob u s).draws = s.draws
      ∧ (takeJob u s).fsl = s.fsl ∧ (takeJob u s).rsu = s.rsu ∧ (takeJob u s).groups = s.groups
      ∧ (takeJob u s).adjs = s.adjs ∧ (takeJob u s).dpx = s.dpx ∧ (takeJob u s).twr = s.twr
      ∧ (takeJob u s).uma = s.uma ∧ (takeJob u s).evu = s.evu ∧ (takeJob u s).rck = s.rck
      ∧ (takeJob u s).cme = s.cme ∧ (takeJob u s).nfu = s.nfu ∧ (takeJob u s).out = s.out := by
  simp [takeJob]

@[simp] theorem issueWork_frame (w : Work) (s : State) :
    (issueWork w s).pending = s.pending ∧ (issueWork w s).now = s.now ∧ (issueWork w s).draws = s.draws
      ∧ (issueWork w s).fsl = s.fsl ∧ (issueWork w s).rsu = s.rsu ∧ (issueWork w s).groups = s.groups
      ∧ (issueWork w s).adjs = s.adjs ∧ (issueWork w s).dpx = s.dpx ∧ (issueWork w s).uma = s.uma
      ∧ (issueWork w s).evu = s.evu ∧ (issueWork w s).rck = s.rck ∧ (issueWork w s).cme = s.cme
      ∧ (issueWork w s).nfu = s.nfu ∧ (issueWork w s).out = s.out := by
  generalize ht : (issueWork w s) = t
  unfold issueWork at ht
  repeat' split at ht
  all_goals
    (try subst_vars)
    simp

@[simp] theorem stepBoundary_frame (s : State) :
    (stepBoundary s).pending = s.pending ∧ (stepBoundary s).now = s.now ∧ (stepBoundary s).draws = s.draws
      ∧ (stepBoundary s).fsl = s.fsl ∧ (stepBoundary s).rsu = s.rsu ∧ (stepBoundary s).groups = s.groups
      ∧ (stepBoundary s).adjs = s.adjs ∧ (stepBoundary s).dpx = s.dpx ∧ (stepBoundary s).uma = s.uma
      ∧ (stepBoundary s).evu = s.evu ∧ (stepBoundary s).rck = s.rck ∧ (stepBoundary s).cme = s.cme
      ∧ (stepBoundary s).nfu = s.nfu ∧ (stepBoundary s).out = s.out := by
  generalize ht : (stepBoundary s) = t
  unfold stepBoundary at ht
  repeat' split at ht
  all_goals
    (try subst_vars)
    simp

@[simp] theorem wakeWalker_frame (s : State) :
    (wakeWalker s).pending = s.pending ∧ (wakeWalker s).now = s.now ∧ (wakeWalker s).draws = s.draws
      ∧ (wakeWalker s).fsl = s.fsl ∧ (wakeWalker s).rsu = s.rsu ∧ (wakeWalker s).groups = s.groups
      ∧ (wakeWalker s).adjs = s.adjs ∧ (wakeWalker s).dpx = s.dpx ∧ (wakeWalker s).uma = s.uma
      ∧ (wakeWalker s).evu = s.evu ∧ (wakeWalker s).rck = s.rck ∧ (wakeWalker s).cme = s.cme
      ∧ (wakeWalker s).nfu = s.nfu ∧ (wakeWalker s).out = s.out := by
  generalize ht : (wakeWalker s) = t
  unfold wakeWalker at ht
  repeat' split at ht
  all_goals
    (try subst_vars)
    simp

@[simp] theorem completeStep_frame (s : State) :
    (completeStep s).pending = s.pending ∧ (completeStep s).now = s.now ∧ (completeStep s).draws = s.draws
      ∧ (completeStep s).fsl = s.fsl ∧ (completeStep s).rsu = s.rsu ∧ (completeStep s).groups = s.groups
      ∧ (completeStep s).adjs = s.adjs ∧ (completeStep s).dpx = s.dpx ∧ (completeStep s).uma = s.uma
      ∧ (completeStep s).evu = s.evu ∧ (completeStep s).rck = s.rck ∧ (completeStep s).cme = s.cme
      ∧ (completeStep s).nfu = s.nfu ∧ (completeStep s).out = s.out := by
  simp [completeStep]

@[simp] theorem requestJob_frame (u : Nat) (s : State) :
    (requestJob u s).pending = s.pending ∧ (requestJob u s).now = s.now ∧ (requestJob u s).draws = s.draws
      ∧ (requestJob u s).fsl = s.fsl ∧ (requestJob u s).rsu = s.rsu ∧ (requestJob u s).groups = s.groups
      ∧ (requestJob u s).adjs = s.adjs ∧ (requestJob u s).dpx = s.dpx ∧ (requestJob u s).twr = s.twr
      ∧ (requestJob u s).uma = s.uma ∧ (requestJob u s).evu = s.evu ∧ (requestJob u s).rck = s.rck
      ∧ (requestJob u s).cme = s.cme ∧ (requestJob u s).nfu = s.nfu ∧ (requestJob u s).out = s.out := by
  generalize ht : (requestJob u s) = t
  unfold requestJob at ht
  repeat' split at ht
  all_goals
    (try subst_vars)
    simp

@[simp] theorem restartJobs_frame (s : State) :
    (restartJobs s).pending = s.pending ∧ (restartJobs s).now = s.now ∧ (restartJobs s).draws = s.draws
      ∧ (restartJobs s).fsl = s.fsl ∧ (restartJobs s).rsu = s.rsu ∧ (restartJobs s).groups = s.groups
      ∧ (restartJobs s).adjs = s.adjs ∧ (restartJobs s).dpx = s.dpx ∧ (restartJobs s).twr = s.twr
      ∧ (restartJobs s).uma = s.uma ∧ (restartJobs s).evu = s.evu ∧ (restartJobs s).rck = s.rck
      ∧ (restartJobs s).cme = s.cme ∧ (restartJobs s).nfu = s.nfu ∧ (restartJobs s).out = s.out := by
  generalize ht : (restartJobs s) = t
  unfold restartJobs at ht
  all_goals
    (try subst_vars)
    simp

@[simp] theorem setDependencyPending_frame (s : State) :
    (setDependencyPending s).pending = s.pending ∧ (setDependencyPending s).now = s.now
      ∧ (setDependencyPending s).draws = s.draws ∧ (setDependencyPending s).fsl = s.fsl
      ∧ (setDependencyPending s).rsu = s.rsu ∧ (setDependencyPending s).groups = s.groups
      ∧ (setDependencyPending s).adjs = s.adjs ∧ (setDependencyPending s).dpx = s.dpx
      ∧ (setDependencyPending s).twr = s.twr ∧ (setDependencyPending s).uma = s.uma
      ∧ (setDependencyPending s).evu = s.evu ∧ (setDependencyPending s).cme = s.cme
      ∧ (setDependencyPending s).nfu = s.nfu ∧ (setDependencyPending s).out = s.out := by
  generalize ht : (setDependencyPending s) = t
  unfold setDependencyPending at ht
  repeat' split at ht
  all_goals
    (try subst_vars)
    simp

@[simp] theorem endEvent_frame (before : State) (after : State) :
    (endEvent before after).pending = after.pending ∧ (endEvent before after).now = after.now
      ∧ (endEvent before after).draws = after.draws ∧ (endEvent before after).fsl = after.fsl
      ∧ (endEvent before after).rsu = after.rsu ∧ (endEvent before after).groups = after.groups
      ∧ (endEvent before after).adjs = after.adjs ∧ (endEvent before after).dpx = after.dpx
      ∧ (endEvent before after).uma = after.uma ∧ (endEvent before after).evu = after.evu
      ∧ (endEvent before after).rck = after.rck ∧ (endEvent before after).cme = after.cme
      ∧ (endEvent before after).out = after.out := by
  simp [endEvent]

@[simp] theorem event_pending (f : State → State) (s : State) (h : (f s).pending = s.pending) : (event f s).pending = s.pending := by
  simp [event, h]
@[simp] theorem event_now (f : State → State) (s : State) (h : (f s).now = s.now) : (event f s).now = s.now := by
  simp [event, h]
@[simp] theorem event_draws (f : State → State) (s : State) (h : (f s).draws = s.draws) : (event f s).draws = s.draws := by
  simp [event, h]
@[simp] theorem event_fsl (f : State → State) (s : State) (h : (f s).fsl = s.fsl) : (event f s).fsl = s.fsl := by
  simp [event, h]
@[simp] theorem event_rsu (f : State → State) (s : State) (h : (f s).rsu = s.rsu) : (event f s).rsu = s.rsu := by
  simp [event, h]
@[simp] theorem event_groups (f : State → State) (s : State) (h : (f s).groups = s.groups) : (event f s).groups = s.groups := by
  simp [event, h]
@[simp] theorem event_adjs (f : State → State) (s : State) (h : (f s).adjs = s.adjs) : (event f s).adjs = s.adjs := by
  simp [event, h]
@[simp] theorem event_dpx (f : State → State) (s : State) (h : (f s).dpx = s.dpx) : (event f s).dpx = s.dpx := by
  simp [event, h]
@[simp] theorem event_uma (f : State → State) (s : State) (h : (f s).uma = s.uma) : (event f s).uma = s.uma := by
  simp [event, h]
@[simp] theorem event_evu (f : State → State) (s : State) (h : (f s).evu = s.evu) : (event f s).evu = s.evu := by
  simp [event, h]
@[simp] theorem event_rck (f : State → State) (s : State) (h : (f s).rck = s.rck) : (event f s).rck = s.rck := by
  simp [event, h]
@[simp] theorem event_cme (f : State → State) (s : State) (h : (f s).cme = s.cme) : (event f s).cme = s.cme := by
  simp [event, h]
@[simp] theorem event_out (f : State → State) (s : State) (h : (f s).out = s.out) : (event f s).out = s.out := by
  simp [event, h]


/-! ### RecordCheck -/

@[simp] theorem countCorrected_frame (k : RecKind) (x0 : State) :
    (countCorrected k x0).pending = x0.pending ∧ (countCorrected k x0).now = x0.now
      ∧ (countCorrected k x0).draws = x0.draws ∧ (countCorrected k x0).fsl = x0.fsl
      ∧ (countCorrected k x0).rsu = x0.rsu ∧ (countCorrected k x0).groups = x0.groups
      ∧ (countCorrected k x0).adjs = x0.adjs ∧ (countCorrected k x0).dpx = x0.dpx
      ∧ (countCorrected k x0).twr = x0.twr ∧ (countCorrected k x0).rwk = x0.rwk ∧ (countCorrected k x0).uma = x0.uma
      ∧ (countCorrected k x0).evu = x0.evu ∧ (countCorrected k x0).cme = x0.cme ∧ (countCorrected k x0).nfu = x0.nfu
      ∧ (countCorrected k x0).out = x0.out := by
  simp [countCorrected]

@[simp] theorem countUncorrected_frame (k : RecKind) (x0 : State) :
    (countUncorrected k x0).pending = x0.pending ∧ (countUncorrected k x0).now = x0.now
      ∧ (countUncorrected k x0).draws = x0.draws ∧ (countUncorrected k x0).fsl = x0.fsl
      ∧ (countUncorrected k x0).rsu = x0.rsu ∧ (countUncorrected k x0).groups = x0.groups
      ∧ (countUncorrected k x0).adjs = x0.adjs ∧ (countUncorrected k x0).dpx = x0.dpx
      ∧ (countUncorrected k x0).twr = x0.twr ∧ (countUncorrected k x0).rwk = x0.rwk
      ∧ (countUncorrected k x0).uma = x0.uma ∧ (countUncorrected k x0).evu = x0.evu
      ∧ (countUncorrected k x0).cme = x0.cme ∧ (countUncorrected k x0).nfu = x0.nfu
      ∧ (countUncorrected k x0).out = x0.out := by
  simp [countUncorrected]

@[simp] theorem writeUnits_frame (p : RecUnit → Bool) (x0 : State) :
    (writeUnits p x0).pending = x0.pending ∧ (writeUnits p x0).now = x0.now ∧ (writeUnits p x0).draws = x0.draws
      ∧ (writeUnits p x0).fsl = x0.fsl ∧ (writeUnits p x0).rsu = x0.rsu ∧ (writeUnits p x0).groups = x0.groups
      ∧ (writeUnits p x0).adjs = x0.adjs ∧ (writeUnits p x0).dpx = x0.dpx ∧ (writeUnits p x0).twr = x0.twr
      ∧ (writeUnits p x0).rwk = x0.rwk ∧ (writeUnits p x0).uma = x0.uma ∧ (writeUnits p x0).evu = x0.evu
      ∧ (writeUnits p x0).cme = x0.cme ∧ (writeUnits p x0).nfu = x0.nfu ∧ (writeUnits p x0).out = x0.out := by
  simp [writeUnits]

@[simp] theorem readUnit_frame (u : RecUnit) (s : State) :
    (readUnit u s).2.pending = s.pending ∧ (readUnit u s).2.now = s.now ∧ (readUnit u s).2.draws = s.draws
      ∧ (readUnit u s).2.fsl = s.fsl ∧ (readUnit u s).2.rsu = s.rsu ∧ (readUnit u s).2.groups = s.groups
      ∧ (readUnit u s).2.adjs = s.adjs ∧ (readUnit u s).2.dpx = s.dpx ∧ (readUnit u s).2.twr = s.twr
      ∧ (readUnit u s).2.rwk = s.rwk ∧ (readUnit u s).2.uma = s.uma ∧ (readUnit u s).2.evu = s.evu
      ∧ (readUnit u s).2.cme = s.cme ∧ (readUnit u s).2.nfu = s.nfu ∧ (readUnit u s).2.out = s.out := by
  generalize ht : (readUnit u s).2 = t
  unfold readUnit at ht
  repeat' split at ht
  all_goals
    (try subst_vars)
    simp

@[simp] theorem joinRebuild_frame (g : Nat) (x0 : State) :
    (joinRebuild g x0).pending = x0.pending ∧ (joinRebuild g x0).now = x0.now ∧ (joinRebuild g x0).draws = x0.draws
      ∧ (joinRebuild g x0).fsl = x0.fsl ∧ (joinRebuild g x0).rsu = x0.rsu ∧ (joinRebuild g x0).groups = x0.groups
      ∧ (joinRebuild g x0).adjs = x0.adjs ∧ (joinRebuild g x0).dpx = x0.dpx ∧ (joinRebuild g x0).twr = x0.twr
      ∧ (joinRebuild g x0).rwk = x0.rwk ∧ (joinRebuild g x0).uma = x0.uma ∧ (joinRebuild g x0).evu = x0.evu
      ∧ (joinRebuild g x0).cme = x0.cme ∧ (joinRebuild g x0).nfu = x0.nfu ∧ (joinRebuild g x0).out = x0.out := by
  simp [joinRebuild]

@[simp] theorem leaveRebuild_frame (g : Nat) (x0 : State) :
    (leaveRebuild g x0).pending = x0.pending ∧ (leaveRebuild g x0).now = x0.now
      ∧ (leaveRebuild g x0).draws = x0.draws ∧ (leaveRebuild g x0).fsl = x0.fsl ∧ (leaveRebuild g x0).rsu = x0.rsu
      ∧ (leaveRebuild g x0).groups = x0.groups ∧ (leaveRebuild g x0).adjs = x0.adjs
      ∧ (leaveRebuild g x0).dpx = x0.dpx ∧ (leaveRebuild g x0).twr = x0.twr ∧ (leaveRebuild g x0).rwk = x0.rwk
      ∧ (leaveRebuild g x0).uma = x0.uma ∧ (leaveRebuild g x0).evu = x0.evu ∧ (leaveRebuild g x0).cme = x0.cme
      ∧ (leaveRebuild g x0).nfu = x0.nfu ∧ (leaveRebuild g x0).out = x0.out := by
  simp [leaveRebuild]

@[simp] theorem joinNaming_frame (a : Nat) (s : State) :
    (joinNaming a s).pending = s.pending ∧ (joinNaming a s).now = s.now ∧ (joinNaming a s).draws = s.draws
      ∧ (joinNaming a s).fsl = s.fsl ∧ (joinNaming a s).rsu = s.rsu ∧ (joinNaming a s).groups = s.groups
      ∧ (joinNaming a s).adjs = s.adjs ∧ (joinNaming a s).dpx = s.dpx ∧ (joinNaming a s).twr = s.twr
      ∧ (joinNaming a s).rwk = s.rwk ∧ (joinNaming a s).uma = s.uma ∧ (joinNaming a s).evu = s.evu
      ∧ (joinNaming a s).cme = s.cme ∧ (joinNaming a s).nfu = s.nfu ∧ (joinNaming a s).out = s.out := by
  simp [joinNaming]

@[simp] theorem markGroupDamaged_frame (g : Nat) (s : State) :
    (markGroupDamaged g s).pending = s.pending ∧ (markGroupDamaged g s).now = s.now
      ∧ (markGroupDamaged g s).draws = s.draws ∧ (markGroupDamaged g s).fsl = s.fsl
      ∧ (markGroupDamaged g s).rsu = s.rsu ∧ (markGroupDamaged g s).adjs = s.adjs
      ∧ (markGroupDamaged g s).dpx = s.dpx ∧ (markGroupDamaged g s).twr = s.twr ∧ (markGroupDamaged g s).rwk = s.rwk
      ∧ (markGroupDamaged g s).uma = s.uma ∧ (markGroupDamaged g s).evu = s.evu ∧ (markGroupDamaged g s).cme = s.cme
      ∧ (markGroupDamaged g s).nfu = s.nfu ∧ (markGroupDamaged g s).out = s.out := by
  simp [markGroupDamaged]

@[simp] theorem groupUncorrectable_frame (k : RecKind) (g : Nat) (s : State) :
    (groupUncorrectable k g s).pending = s.pending ∧ (groupUncorrectable k g s).now = s.now
      ∧ (groupUncorrectable k g s).draws = s.draws ∧ (groupUncorrectable k g s).fsl = s.fsl
      ∧ (groupUncorrectable k g s).rsu = s.rsu ∧ (groupUncorrectable k g s).adjs = s.adjs
      ∧ (groupUncorrectable k g s).dpx = s.dpx ∧ (groupUncorrectable k g s).twr = s.twr
      ∧ (groupUncorrectable k g s).rwk = s.rwk ∧ (groupUncorrectable k g s).uma = s.uma
      ∧ (groupUncorrectable k g s).evu = s.evu ∧ (groupUncorrectable k g s).cme = s.cme
      ∧ (groupUncorrectable k g s).out = s.out := by
  simp [groupUncorrectable]

@[simp] theorem markAdjDamaged_frame (a : Nat) (s : State) :
    (markAdjDamaged a s).pending = s.pending ∧ (markAdjDamaged a s).now = s.now
      ∧ (markAdjDamaged a s).draws = s.draws ∧ (markAdjDamaged a s).fsl = s.fsl ∧ (markAdjDamaged a s).rsu = s.rsu
      ∧ (markAdjDamaged a s).groups = s.groups ∧ (markAdjDamaged a s).dpx = s.dpx ∧ (markAdjDamaged a s).twr = s.twr
      ∧ (markAdjDamaged a s).rwk = s.rwk ∧ (markAdjDamaged a s).uma = s.uma ∧ (markAdjDamaged a s).evu = s.evu
      ∧ (markAdjDamaged a s).cme = s.cme ∧ (markAdjDamaged a s).nfu = s.nfu ∧ (markAdjDamaged a s).out = s.out := by
  simp [markAdjDamaged]

@[simp] theorem adjUncorrectable_frame (a : Nat) (s : State) :
    (adjUncorrectable a s).pending = s.pending ∧ (adjUncorrectable a s).now = s.now
      ∧ (adjUncorrectable a s).draws = s.draws ∧ (adjUncorrectable a s).fsl = s.fsl
      ∧ (adjUncorrectable a s).rsu = s.rsu ∧ (adjUncorrectable a s).groups = s.groups
      ∧ (adjUncorrectable a s).dpx = s.dpx ∧ (adjUncorrectable a s).twr = s.twr ∧ (adjUncorrectable a s).rwk = s.rwk
      ∧ (adjUncorrectable a s).uma = s.uma ∧ (adjUncorrectable a s).evu = s.evu ∧ (adjUncorrectable a s).cme = s.cme
      ∧ (adjUncorrectable a s).out = s.out := by
  simp [adjUncorrectable]

@[simp] theorem bucketUncorrectable_frame (g : Nat) (s : State) :
    (bucketUncorrectable g s).pending = s.pending ∧ (bucketUncorrectable g s).now = s.now
      ∧ (bucketUncorrectable g s).draws = s.draws ∧ (bucketUncorrectable g s).fsl = s.fsl
      ∧ (bucketUncorrectable g s).rsu = s.rsu ∧ (bucketUncorrectable g s).groups = s.groups
      ∧ (bucketUncorrectable g s).adjs = s.adjs ∧ (bucketUncorrectable g s).dpx = s.dpx
      ∧ (bucketUncorrectable g s).twr = s.twr ∧ (bucketUncorrectable g s).rwk = s.rwk
      ∧ (bucketUncorrectable g s).uma = s.uma ∧ (bucketUncorrectable g s).evu = s.evu
      ∧ (bucketUncorrectable g s).cme = s.cme ∧ (bucketUncorrectable g s).nfu = s.nfu
      ∧ (bucketUncorrectable g s).out = s.out := by
  simp [bucketUncorrectable]

@[simp] theorem entryUncorrectable_frame (s : State) :
    (entryUncorrectable s).pending = s.pending ∧ (entryUncorrectable s).now = s.now
      ∧ (entryUncorrectable s).draws = s.draws ∧ (entryUncorrectable s).fsl = s.fsl
      ∧ (entryUncorrectable s).rsu = s.rsu ∧ (entryUncorrectable s).groups = s.groups
      ∧ (entryUncorrectable s).adjs = s.adjs ∧ (entryUncorrectable s).dpx = s.dpx
      ∧ (entryUncorrectable s).twr = s.twr ∧ (entryUncorrectable s).uma = s.uma ∧ (entryUncorrectable s).evu = s.evu
      ∧ (entryUncorrectable s).cme = s.cme ∧ (entryUncorrectable s).out = s.out := by
  simp [entryUncorrectable]

@[simp] theorem degrade_frame (f : DupField) (s : State) :
    (degrade f s).pending = s.pending ∧ (degrade f s).now = s.now ∧ (degrade f s).draws = s.draws
      ∧ (degrade f s).fsl = s.fsl ∧ (degrade f s).rsu = s.rsu ∧ (degrade f s).dpx = s.dpx
      ∧ (degrade f s).twr = s.twr ∧ (degrade f s).rwk = s.rwk ∧ (degrade f s).uma = s.uma
      ∧ (degrade f s).evu = s.evu ∧ (degrade f s).cme = s.cme ∧ (degrade f s).nfu = s.nfu
      ∧ (degrade f s).out = s.out := by
  generalize ht : (degrade f s) = t
  unfold degrade at ht
  repeat' split at ht
  all_goals
    (try subst_vars)
    simp

@[simp] theorem fieldLost_frame (f : DupField) (s : State) :
    (fieldLost f s).pending = s.pending ∧ (fieldLost f s).now = s.now ∧ (fieldLost f s).draws = s.draws
      ∧ (fieldLost f s).fsl = s.fsl ∧ (fieldLost f s).rsu = s.rsu ∧ (fieldLost f s).dpx = s.dpx
      ∧ (fieldLost f s).twr = s.twr ∧ (fieldLost f s).rwk = s.rwk ∧ (fieldLost f s).uma = s.uma
      ∧ (fieldLost f s).evu = s.evu ∧ (fieldLost f s).cme = s.cme ∧ (fieldLost f s).out = s.out := by
  simp [fieldLost]

@[simp] theorem repairCopy_frame (f : DupField) (second : Bool) (s : State) :
    (repairCopy f second s).pending = s.pending ∧ (repairCopy f second s).now = s.now
      ∧ (repairCopy f second s).draws = s.draws ∧ (repairCopy f second s).fsl = s.fsl
      ∧ (repairCopy f second s).rsu = s.rsu ∧ (repairCopy f second s).groups = s.groups
      ∧ (repairCopy f second s).adjs = s.adjs ∧ (repairCopy f second s).dpx = s.dpx
      ∧ (repairCopy f second s).twr = s.twr ∧ (repairCopy f second s).rwk = s.rwk
      ∧ (repairCopy f second s).uma = s.uma ∧ (repairCopy f second s).evu = s.evu
      ∧ (repairCopy f second s).cme = s.cme ∧ (repairCopy f second s).nfu = s.nfu
      ∧ (repairCopy f second s).out = s.out := by
  simp [repairCopy]

@[simp] theorem readField_frame (f : DupField) (s : State) :
    (readField f s).2.pending = s.pending ∧ (readField f s).2.now = s.now ∧ (readField f s).2.draws = s.draws
      ∧ (readField f s).2.fsl = s.fsl ∧ (readField f s).2.rsu = s.rsu ∧ (readField f s).2.dpx = s.dpx
      ∧ (readField f s).2.twr = s.twr ∧ (readField f s).2.rwk = s.rwk ∧ (readField f s).2.uma = s.uma
      ∧ (readField f s).2.evu = s.evu ∧ (readField f s).2.cme = s.cme ∧ (readField f s).2.out = s.out := by
  generalize ht : (readField f s).2 = t
  unfold readField at ht
  repeat' split at ht
  all_goals
    (try simp only [Prod.ext_iff] at *)
    (try casesm* _ ∧ _)
    (try subst_vars)
    simp

@[simp] theorem readBothCopies_frame (f : DupField) (s : State) :
    (readBothCopies f s).2.pending = s.pending ∧ (readBothCopies f s).2.now = s.now
      ∧ (readBothCopies f s).2.draws = s.draws ∧ (readBothCopies f s).2.fsl = s.fsl
      ∧ (readBothCopies f s).2.rsu = s.rsu ∧ (readBothCopies f s).2.dpx = s.dpx ∧ (readBothCopies f s).2.twr = s.twr
      ∧ (readBothCopies f s).2.rwk = s.rwk ∧ (readBothCopies f s).2.uma = s.uma ∧ (readBothCopies f s).2.evu = s.evu
      ∧ (readBothCopies f s).2.cme = s.cme ∧ (readBothCopies f s).2.out = s.out := by
  generalize ht : (readBothCopies f s).2 = t
  unfold readBothCopies at ht
  repeat' split at ht
  all_goals
    (try simp only [Prod.ext_iff] at *)
    (try casesm* _ ∧ _)
    (try subst_vars)
    simp

@[simp] theorem readDup_frame (audit : Bool) (f : DupField) (s : State) :
    (readDup audit f s).2.pending = s.pending ∧ (readDup audit f s).2.now = s.now
      ∧ (readDup audit f s).2.draws = s.draws ∧ (readDup audit f s).2.fsl = s.fsl
      ∧ (readDup audit f s).2.rsu = s.rsu ∧ (readDup audit f s).2.dpx = s.dpx ∧ (readDup audit f s).2.twr = s.twr
      ∧ (readDup audit f s).2.rwk = s.rwk ∧ (readDup audit f s).2.uma = s.uma ∧ (readDup audit f s).2.evu = s.evu
      ∧ (readDup audit f s).2.cme = s.cme ∧ (readDup audit f s).2.out = s.out := by
  generalize ht : (readDup audit f s).2 = t
  unfold readDup at ht
  repeat' split at ht
  all_goals
    (try subst_vars)
    simp

@[simp] theorem readFields_frame (audit : Bool) (x0 : List DupField) (x1 : State) :
    (readFields audit x0 x1).2.pending = x1.pending ∧ (readFields audit x0 x1).2.now = x1.now
      ∧ (readFields audit x0 x1).2.draws = x1.draws ∧ (readFields audit x0 x1).2.fsl = x1.fsl
      ∧ (readFields audit x0 x1).2.rsu = x1.rsu ∧ (readFields audit x0 x1).2.dpx = x1.dpx
      ∧ (readFields audit x0 x1).2.twr = x1.twr ∧ (readFields audit x0 x1).2.rwk = x1.rwk
      ∧ (readFields audit x0 x1).2.uma = x1.uma ∧ (readFields audit x0 x1).2.evu = x1.evu
      ∧ (readFields audit x0 x1).2.cme = x1.cme ∧ (readFields audit x0 x1).2.out = x1.out := by
  induction x0 generalizing x1 with
  | nil => simp [readFields]
  | cons a l ih =>
    generalize ht : (readFields audit (a :: l) x1).2 = t
    unfold readFields at ht
    repeat' split at ht
    all_goals
      (try simp only [Prod.ext_iff] at *)
      (try casesm* _ ∧ _)
      (try subst_vars)
      simp [ih]

@[simp] theorem readAdjContent_frame (a : Nat) (s : State) :
    (readAdjContent a s).pending = s.pending ∧ (readAdjContent a s).now = s.now
      ∧ (readAdjContent a s).draws = s.draws ∧ (readAdjContent a s).fsl = s.fsl ∧ (readAdjContent a s).rsu = s.rsu
      ∧ (readAdjContent a s).groups = s.groups ∧ (readAdjContent a s).dpx = s.dpx ∧ (readAdjContent a s).twr = s.twr
      ∧ (readAdjContent a s).rwk = s.rwk ∧ (readAdjContent a s).uma = s.uma ∧ (readAdjContent a s).evu = s.evu
      ∧ (readAdjContent a s).cme = s.cme ∧ (readAdjContent a s).out = s.out := by
  generalize ht : (readAdjContent a s) = t
  unfold readAdjContent at ht
  repeat' split at ht
  all_goals
    (try simp only [Prod.ext_iff] at *)
    (try casesm* _ ∧ _)
    (try subst_vars)
    simp

@[simp] theorem readAdjRecord_frame (audit : Bool) (a : Nat) (s : State) :
    (readAdjRecord audit a s).2.pending = s.pending ∧ (readAdjRecord audit a s).2.now = s.now
      ∧ (readAdjRecord audit a s).2.draws = s.draws ∧ (readAdjRecord audit a s).2.fsl = s.fsl
      ∧ (readAdjRecord audit a s).2.rsu = s.rsu ∧ (readAdjRecord audit a s).2.dpx = s.dpx
      ∧ (readAdjRecord audit a s).2.twr = s.twr ∧ (readAdjRecord audit a s).2.rwk = s.rwk
      ∧ (readAdjRecord audit a s).2.uma = s.uma ∧ (readAdjRecord audit a s).2.evu = s.evu
      ∧ (readAdjRecord audit a s).2.cme = s.cme ∧ (readAdjRecord audit a s).2.out = s.out := by
  generalize ht : (readAdjRecord audit a s).2 = t
  unfold readAdjRecord at ht
  repeat' split at ht
  all_goals
    (try simp only [Prod.ext_iff] at *)
    (try casesm* _ ∧ _)
    (try subst_vars)
    simp

@[simp] theorem readAdj_frame (audit : Bool) (a : Nat) (s : State) :
    (readAdj audit a s).pending = s.pending ∧ (readAdj audit a s).now = s.now ∧ (readAdj audit a s).draws = s.draws
      ∧ (readAdj audit a s).fsl = s.fsl ∧ (readAdj audit a s).rsu = s.rsu ∧ (readAdj audit a s).dpx = s.dpx
      ∧ (readAdj audit a s).twr = s.twr ∧ (readAdj audit a s).rwk = s.rwk ∧ (readAdj audit a s).uma = s.uma
      ∧ (readAdj audit a s).evu = s.evu ∧ (readAdj audit a s).cme = s.cme ∧ (readAdj audit a s).out = s.out := by
  simp [readAdj]

@[simp] theorem readAdjReturned_frame (a : Nat) (s : State) :
    (readAdjReturned a s).pending = s.pending ∧ (readAdjReturned a s).now = s.now ∧ (readAdjReturned a s).draws = s.draws
      ∧ (readAdjReturned a s).fsl = s.fsl ∧ (readAdjReturned a s).rsu = s.rsu ∧ (readAdjReturned a s).dpx = s.dpx
      ∧ (readAdjReturned a s).twr = s.twr ∧ (readAdjReturned a s).rwk = s.rwk ∧ (readAdjReturned a s).uma = s.uma
      ∧ (readAdjReturned a s).evu = s.evu ∧ (readAdjReturned a s).cme = s.cme ∧ (readAdjReturned a s).out = s.out := by
  simp [readAdjReturned]

@[simp] theorem readAdjUplink_frame (a : Nat) (s : State) :
    (readAdjUplink a s).2.pending = s.pending ∧ (readAdjUplink a s).2.now = s.now
      ∧ (readAdjUplink a s).2.draws = s.draws ∧ (readAdjUplink a s).2.fsl = s.fsl
      ∧ (readAdjUplink a s).2.rsu = s.rsu ∧ (readAdjUplink a s).2.dpx = s.dpx ∧ (readAdjUplink a s).2.twr = s.twr
      ∧ (readAdjUplink a s).2.rwk = s.rwk ∧ (readAdjUplink a s).2.uma = s.uma ∧ (readAdjUplink a s).2.evu = s.evu
      ∧ (readAdjUplink a s).2.cme = s.cme ∧ (readAdjUplink a s).2.out = s.out := by
  generalize ht : (readAdjUplink a s).2 = t
  unfold readAdjUplink at ht
  repeat' split at ht
  all_goals
    (try simp only [Prod.ext_iff] at *)
    (try casesm* _ ∧ _)
    (try subst_vars)
    simp

@[simp] theorem readAdjs_frame (whole : Bool) (x0 : List Nat) (x1 : State) :
    (readAdjs whole x0 x1).2.pending = x1.pending ∧ (readAdjs whole x0 x1).2.now = x1.now
      ∧ (readAdjs whole x0 x1).2.draws = x1.draws ∧ (readAdjs whole x0 x1).2.fsl = x1.fsl
      ∧ (readAdjs whole x0 x1).2.rsu = x1.rsu ∧ (readAdjs whole x0 x1).2.dpx = x1.dpx
      ∧ (readAdjs whole x0 x1).2.twr = x1.twr ∧ (readAdjs whole x0 x1).2.rwk = x1.rwk
      ∧ (readAdjs whole x0 x1).2.uma = x1.uma ∧ (readAdjs whole x0 x1).2.evu = x1.evu
      ∧ (readAdjs whole x0 x1).2.cme = x1.cme ∧ (readAdjs whole x0 x1).2.out = x1.out := by
  induction x0 generalizing x1 with
  | nil => simp [readAdjs]
  | cons a l ih =>
    cases whole <;> simp only [readAdjs, Bool.false_eq_true, if_false, if_true]
    · rcases hy : readAdjUplink a x1 with ⟨ok, s1⟩
      replace hy := congrArg Prod.snd hy
      dsimp only at hy
      subst hy
      cases ok <;> simp [ih]
    · rcases hy : readAdjRecord false a x1 with ⟨ok, s1⟩
      replace hy := congrArg Prod.snd hy
      dsimp only at hy
      subst hy
      cases ok <;> simp [ih]

@[simp] theorem readHeaderWith_frame (audit : Bool) (fs : List DupField) (g : Nat) (s : State) :
    (readHeaderWith audit fs g s).pending = s.pending ∧ (readHeaderWith audit fs g s).now = s.now
      ∧ (readHeaderWith audit fs g s).draws = s.draws ∧ (readHeaderWith audit fs g s).fsl = s.fsl
      ∧ (readHeaderWith audit fs g s).rsu = s.rsu ∧ (readHeaderWith audit fs g s).dpx = s.dpx
      ∧ (readHeaderWith audit fs g s).twr = s.twr ∧ (readHeaderWith audit fs g s).rwk = s.rwk ∧ (readHeaderWith audit fs g s).uma = s.uma
      ∧ (readHeaderWith audit fs g s).evu = s.evu ∧ (readHeaderWith audit fs g s).cme = s.cme
      ∧ (readHeaderWith audit fs g s).out = s.out := by
  generalize ht : (readHeaderWith audit fs g s) = t
  unfold readHeaderWith at ht
  dsimp only at ht
  repeat' split at ht
  all_goals
    (try simp only [Prod.ext_iff] at *)
    (try casesm* _ ∧ _)
    (try subst_vars)
    simp

@[simp] theorem readHeader_frame (audit : Bool) (g : Nat) (s : State) :
    (readHeader audit g s).pending = s.pending ∧ (readHeader audit g s).now = s.now
      ∧ (readHeader audit g s).draws = s.draws ∧ (readHeader audit g s).fsl = s.fsl
      ∧ (readHeader audit g s).rsu = s.rsu ∧ (readHeader audit g s).dpx = s.dpx ∧ (readHeader audit g s).twr = s.twr
      ∧ (readHeader audit g s).rwk = s.rwk ∧ (readHeader audit g s).uma = s.uma ∧ (readHeader audit g s).evu = s.evu
      ∧ (readHeader audit g s).cme = s.cme ∧ (readHeader audit g s).out = s.out := by
  simp [readHeader]

@[simp] theorem readMember_frame (audit : Bool) (g : Nat) (i : Nat) (s : State) :
    (readMember audit g i s).pending = s.pending ∧ (readMember audit g i s).now = s.now
      ∧ (readMember audit g i s).draws = s.draws ∧ (readMember audit g i s).fsl = s.fsl
      ∧ (readMember audit g i s).rsu = s.rsu ∧ (readMember audit g i s).dpx = s.dpx
      ∧ (readMember audit g i s).twr = s.twr ∧ (readMember audit g i s).rwk = s.rwk
      ∧ (readMember audit g i s).uma = s.uma ∧ (readMember audit g i s).evu = s.evu
      ∧ (readMember audit g i s).cme = s.cme ∧ (readMember audit g i s).out = s.out := by
  generalize ht : (readMember audit g i s) = t
  unfold readMember at ht
  repeat' split at ht
  all_goals
    (try simp only [Prod.ext_iff] at *)
    (try casesm* _ ∧ _)
    (try subst_vars)
    simp

@[simp] theorem readMembers_frame (audit : Bool) (g : Nat) (s : State) :
    (readMembers audit g s).pending = s.pending ∧ (readMembers audit g s).now = s.now
      ∧ (readMembers audit g s).draws = s.draws ∧ (readMembers audit g s).fsl = s.fsl
      ∧ (readMembers audit g s).rsu = s.rsu ∧ (readMembers audit g s).dpx = s.dpx
      ∧ (readMembers audit g s).twr = s.twr ∧ (readMembers audit g s).rwk = s.rwk
      ∧ (readMembers audit g s).uma = s.uma ∧ (readMembers audit g s).evu = s.evu
      ∧ (readMembers audit g s).cme = s.cme ∧ (readMembers audit g s).out = s.out := by
  simp [readMembers]

@[simp] theorem readMemberAdjs_frame (audit : Bool) (g : Nat) (s : State) :
    (readMemberAdjs audit g s).pending = s.pending ∧ (readMemberAdjs audit g s).now = s.now
      ∧ (readMemberAdjs audit g s).draws = s.draws ∧ (readMemberAdjs audit g s).fsl = s.fsl
      ∧ (readMemberAdjs audit g s).rsu = s.rsu ∧ (readMemberAdjs audit g s).dpx = s.dpx
      ∧ (readMemberAdjs audit g s).twr = s.twr ∧ (readMemberAdjs audit g s).rwk = s.rwk
      ∧ (readMemberAdjs audit g s).uma = s.uma ∧ (readMemberAdjs audit g s).evu = s.evu
      ∧ (readMemberAdjs audit g s).cme = s.cme ∧ (readMemberAdjs audit g s).out = s.out := by
  simp [readMemberAdjs]

@[simp] theorem readBucket_frame (g : Nat) (b : Nat) (s : State) :
    (readBucket g b s).2.pending = s.pending ∧ (readBucket g b s).2.now = s.now
      ∧ (readBucket g b s).2.draws = s.draws ∧ (readBucket g b s).2.fsl = s.fsl ∧ (readBucket g b s).2.rsu = s.rsu
      ∧ (readBucket g b s).2.groups = s.groups ∧ (readBucket g b s).2.adjs = s.adjs
      ∧ (readBucket g b s).2.dpx = s.dpx ∧ (readBucket g b s).2.twr = s.twr ∧ (readBucket g b s).2.rwk = s.rwk
      ∧ (readBucket g b s).2.uma = s.uma ∧ (readBucket g b s).2.evu = s.evu ∧ (readBucket g b s).2.cme = s.cme
      ∧ (readBucket g b s).2.nfu = s.nfu ∧ (readBucket g b s).2.out = s.out := by
  generalize ht : (readBucket g b s).2 = t
  unfold readBucket at ht
  repeat' split at ht
  all_goals
    (try simp only [Prod.ext_iff] at *)
    (try casesm* _ ∧ _)
    (try subst_vars)
    simp

@[simp] theorem readBuckets_frame (g : Nat) (x0 : List Nat) (x1 : State) :
    (readBuckets g x0 x1).2.pending = x1.pending ∧ (readBuckets g x0 x1).2.now = x1.now
      ∧ (readBuckets g x0 x1).2.draws = x1.draws ∧ (readBuckets g x0 x1).2.fsl = x1.fsl
      ∧ (readBuckets g x0 x1).2.rsu = x1.rsu ∧ (readBuckets g x0 x1).2.groups = x1.groups
      ∧ (readBuckets g x0 x1).2.adjs = x1.adjs ∧ (readBuckets g x0 x1).2.dpx = x1.dpx
      ∧ (readBuckets g x0 x1).2.twr = x1.twr ∧ (readBuckets g x0 x1).2.rwk = x1.rwk
      ∧ (readBuckets g x0 x1).2.uma = x1.uma ∧ (readBuckets g x0 x1).2.evu = x1.evu
      ∧ (readBuckets g x0 x1).2.cme = x1.cme ∧ (readBuckets g x0 x1).2.nfu = x1.nfu
      ∧ (readBuckets g x0 x1).2.out = x1.out := by
  induction x0 generalizing x1 with
  | nil => simp [readBuckets]
  | cons a l ih =>
    generalize ht : (readBuckets g (a :: l) x1).2 = t
    unfold readBuckets at ht
    repeat' split at ht
    all_goals
      (try simp only [Prod.ext_iff] at *)
      (try casesm* _ ∧ _)
      (try subst_vars)
      simp [ih]

@[simp] theorem readEntries_frame (u : Nat) (x0 : List Nat) (x1 : State) :
    (readEntries u x0 x1).2.pending = x1.pending ∧ (readEntries u x0 x1).2.now = x1.now
      ∧ (readEntries u x0 x1).2.draws = x1.draws ∧ (readEntries u x0 x1).2.fsl = x1.fsl
      ∧ (readEntries u x0 x1).2.rsu = x1.rsu ∧ (readEntries u x0 x1).2.groups = x1.groups
      ∧ (readEntries u x0 x1).2.adjs = x1.adjs ∧ (readEntries u x0 x1).2.dpx = x1.dpx
      ∧ (readEntries u x0 x1).2.twr = x1.twr ∧ (readEntries u x0 x1).2.uma = x1.uma
      ∧ (readEntries u x0 x1).2.evu = x1.evu ∧ (readEntries u x0 x1).2.cme = x1.cme
      ∧ (readEntries u x0 x1).2.out = x1.out := by
  induction x0 generalizing x1 with
  | nil => simp [readEntries]
  | cons a l ih =>
    generalize ht : (readEntries u (a :: l) x1).2 = t
    unfold readEntries at ht
    repeat' split at ht
    all_goals
      (try simp only [Prod.ext_iff] at *)
      (try casesm* _ ∧ _)
      (try subst_vars)
      simp [ih]


/-! ### Settle -/

@[simp] theorem updateDepleted_frame (g : Nat) (notify : Bool) (live : Nat) (s : State) :
    (updateDepleted g notify live s).pending = s.pending ∧ (updateDepleted g notify live s).now = s.now
      ∧ (updateDepleted g notify live s).draws = s.draws ∧ (updateDepleted g notify live s).fsl = s.fsl
      ∧ (updateDepleted g notify live s).rsu = s.rsu ∧ (updateDepleted g notify live s).groups = s.groups
      ∧ (updateDepleted g notify live s).adjs = s.adjs ∧ (updateDepleted g notify live s).dpx = s.dpx
      ∧ (updateDepleted g notify live s).rwk = s.rwk ∧ (updateDepleted g notify live s).uma = s.uma
      ∧ (updateDepleted g notify live s).evu = s.evu ∧ (updateDepleted g notify live s).rck = s.rck
      ∧ (updateDepleted g notify live s).cme = s.cme ∧ (updateDepleted g notify live s).out = s.out := by
  generalize ht : (updateDepleted g notify live s) = t
  unfold updateDepleted at ht
  repeat' split at ht
  all_goals
    (try subst_vars)
    simp

@[simp] theorem settleRecord_frame (audit : Bool) (g : Nat) (s : State) :
    (settleRecord audit g s).2.pending = s.pending ∧ (settleRecord audit g s).2.now = s.now
      ∧ (settleRecord audit g s).2.draws = s.draws ∧ (settleRecord audit g s).2.fsl = s.fsl
      ∧ (settleRecord audit g s).2.rsu = s.rsu ∧ (settleRecord audit g s).2.dpx = s.dpx
      ∧ (settleRecord audit g s).2.rwk = s.rwk ∧ (settleRecord audit g s).2.uma = s.uma
      ∧ (settleRecord audit g s).2.evu = s.evu ∧ (settleRecord audit g s).2.cme = s.cme
      ∧ (settleRecord audit g s).2.out = s.out := by
  generalize ht : (settleRecord audit g s).2 = t
  unfold settleRecord at ht
  all_goals
    (try subst_vars)
    simp

@[simp] theorem publish_frame (g : Nat) (s : State) :
    (publish g s).pending = s.pending ∧ (publish g s).now = s.now ∧ (publish g s).draws = s.draws
      ∧ (publish g s).fsl = s.fsl ∧ (publish g s).rsu = s.rsu ∧ (publish g s).adjs = s.adjs
      ∧ (publish g s).dpx = s.dpx ∧ (publish g s).twr = s.twr ∧ (publish g s).rwk = s.rwk
      ∧ (publish g s).uma = s.uma ∧ (publish g s).evu = s.evu ∧ (publish g s).cme = s.cme
      ∧ (publish g s).nfu = s.nfu ∧ (publish g s).out = s.out := by
  simp [publish]

@[simp] theorem settleStep_frame (audit : Bool) (g : Nat) (s : State) :
    (settleStep audit g s).pending = s.pending ∧ (settleStep audit g s).now = s.now
      ∧ (settleStep audit g s).draws = s.draws ∧ (settleStep audit g s).fsl = s.fsl
      ∧ (settleStep audit g s).rsu = s.rsu ∧ (settleStep audit g s).dpx = s.dpx ∧ (settleStep audit g s).rwk = s.rwk
      ∧ (settleStep audit g s).uma = s.uma ∧ (settleStep audit g s).evu = s.evu ∧ (settleStep audit g s).cme = s.cme
      ∧ (settleStep audit g s).out = s.out := by
  generalize ht : (settleStep audit g s) = t
  unfold settleStep at ht
  extract_lets s1 at ht
  have h1 : readMembers audit g (readHeader audit g s) = s1 := rfl
  clear_value s1
  split at ht
  · split at ht
    rename_i heq
    replace heq := congrArg Prod.snd heq
    dsimp only at heq
    split at ht <;> subst ht heq h1 <;> simp
  · subst ht h1; simp


/-! ### Resolve -/

@[simp] theorem readServed_frame (asBackup : Bool) (x : Nat) (hash : Nat) (s : State) :
    (readServed asBackup x hash s).2.pending = s.pending ∧ (readServed asBackup x hash s).2.now = s.now
      ∧ (readServed asBackup x hash s).2.draws = s.draws ∧ (readServed asBackup x hash s).2.fsl = s.fsl
      ∧ (readServed asBackup x hash s).2.rsu = s.rsu ∧ (readServed asBackup x hash s).2.dpx = s.dpx
      ∧ (readServed asBackup x hash s).2.twr = s.twr ∧ (readServed asBackup x hash s).2.rwk = s.rwk
      ∧ (readServed asBackup x hash s).2.uma = s.uma ∧ (readServed asBackup x hash s).2.evu = s.evu
      ∧ (readServed asBackup x hash s).2.cme = s.cme ∧ (readServed asBackup x hash s).2.out = s.out := by
  generalize ht : (readServed asBackup x hash s).2 = t
  unfold readServed at ht
  extract_lets s1 at ht
  have h1 : readHeaderWith false (servedFields asBackup x) x s = s1 := rfl
  clear_value s1
  split at ht
  · split at ht
    rename_i ok s2 heq
    replace heq := congrArg Prod.snd heq
    try dsimp only at heq
    try extract_lets s3 at ht
    have h3 : readMembers false x s2 = s3 := rfl
    clear_value s3
    split at ht
    · try dsimp only at ht
      subst ht h3 heq h1
      simp +zetaDelta
    · try dsimp only at ht
      subst ht h3 heq h1
      simp
  · try dsimp only at ht
    subst ht h1
    simp

@[simp] theorem damagedAnswer_frame (g : Nat) (passed : List Nat) (s : State) :
    (damagedAnswer g passed s).2.pending = s.pending ∧ (damagedAnswer g passed s).2.now = s.now
      ∧ (damagedAnswer g passed s).2.draws = s.draws ∧ (damagedAnswer g passed s).2.fsl = s.fsl
      ∧ (damagedAnswer g passed s).2.rsu = s.rsu ∧ (damagedAnswer g passed s).2.dpx = s.dpx
      ∧ (damagedAnswer g passed s).2.twr = s.twr ∧ (damagedAnswer g passed s).2.rwk = s.rwk
      ∧ (damagedAnswer g passed s).2.uma = s.uma ∧ (damagedAnswer g passed s).2.evu = s.evu
      ∧ (damagedAnswer g passed s).2.cme = s.cme ∧ (damagedAnswer g passed s).2.out = s.out := by
  generalize ht : (damagedAnswer g passed s).2 = t
  unfold damagedAnswer at ht
  repeat' split at ht
  all_goals
    (try simp only [Prod.ext_iff] at *)
    (try casesm* _ ∧ _)
    (try subst_vars)
    simp

@[simp] theorem backupInstalled_frame (b : Nat) (s : State) :
    (backupInstalled b s).2.pending = s.pending ∧ (backupInstalled b s).2.now = s.now
      ∧ (backupInstalled b s).2.draws = s.draws ∧ (backupInstalled b s).2.fsl = s.fsl
      ∧ (backupInstalled b s).2.rsu = s.rsu ∧ (backupInstalled b s).2.dpx = s.dpx
      ∧ (backupInstalled b s).2.twr = s.twr ∧ (backupInstalled b s).2.rwk = s.rwk
      ∧ (backupInstalled b s).2.uma = s.uma ∧ (backupInstalled b s).2.evu = s.evu
      ∧ (backupInstalled b s).2.cme = s.cme ∧ (backupInstalled b s).2.out = s.out := by
  generalize ht : (backupInstalled b s).2 = t
  unfold backupInstalled at ht
  repeat' split at ht
  all_goals
    (try simp only [Prod.ext_iff] at *)
    (try casesm* _ ∧ _)
    (try subst_vars)
    simp

@[simp] theorem deriveDamaged_frame (g : Nat) (hash : Nat) (s : State) :
    (deriveDamaged g hash s).2.pending = s.pending ∧ (deriveDamaged g hash s).2.now = s.now
      ∧ (deriveDamaged g hash s).2.draws = s.draws ∧ (deriveDamaged g hash s).2.fsl = s.fsl
      ∧ (deriveDamaged g hash s).2.rsu = s.rsu ∧ (deriveDamaged g hash s).2.dpx = s.dpx
      ∧ (deriveDamaged g hash s).2.twr = s.twr ∧ (deriveDamaged g hash s).2.rwk = s.rwk
      ∧ (deriveDamaged g hash s).2.uma = s.uma ∧ (deriveDamaged g hash s).2.evu = s.evu
      ∧ (deriveDamaged g hash s).2.cme = s.cme ∧ (deriveDamaged g hash s).2.out = s.out := by
  generalize ht : (deriveDamaged g hash s).2 = t
  unfold deriveDamaged at ht
  split at ht <;> rename_i heq <;> replace heq := congrArg Prod.snd heq <;> dsimp only at heq
  · subst ht heq; simp
  · split at ht
    · subst ht heq; simp
    · split at ht <;> rename_i heq2 <;> replace heq2 := congrArg Prod.snd heq2 <;> dsimp only at heq2
      · subst ht heq2 heq; simp
      · split at ht <;> rename_i heq3 <;> replace heq3 := congrArg Prod.snd heq3 <;> dsimp only at heq3
        · subst ht heq3 heq2 heq; simp
        · split at ht <;> (try dsimp only at ht) <;> subst ht heq3 heq2 heq <;> simp

@[simp] theorem deriveBackup_frame (g : Nat) (hash : Nat) (passed : List Nat) (s : State) :
    (deriveBackup g hash passed s).2.pending = s.pending ∧ (deriveBackup g hash passed s).2.now = s.now
      ∧ (deriveBackup g hash passed s).2.draws = s.draws ∧ (deriveBackup g hash passed s).2.fsl = s.fsl
      ∧ (deriveBackup g hash passed s).2.rsu = s.rsu ∧ (deriveBackup g hash passed s).2.dpx = s.dpx
      ∧ (deriveBackup g hash passed s).2.twr = s.twr ∧ (deriveBackup g hash passed s).2.rwk = s.rwk
      ∧ (deriveBackup g hash passed s).2.uma = s.uma ∧ (deriveBackup g hash passed s).2.evu = s.evu
      ∧ (deriveBackup g hash passed s).2.cme = s.cme ∧ (deriveBackup g hash passed s).2.out = s.out := by
  generalize ht : (deriveBackup g hash passed s).2 = t
  unfold deriveBackup at ht
  split at ht
  · dsimp only at ht; subst ht; simp
  · split at ht <;> rename_i heq2 <;> replace heq2 := congrArg Prod.snd heq2 <;> dsimp only at heq2
    · dsimp only at ht; subst ht heq2; simp
    · split at ht <;> rename_i heq3 <;> replace heq3 := congrArg Prod.snd heq3 <;> dsimp only at heq3
      · dsimp only at ht; subst ht heq3 heq2; simp
      · split at ht <;> dsimp only at ht <;> subst ht heq3 heq2 <;> simp

@[simp] theorem derive_frame (g : Nat) (hash : Nat) (s : State) :
    (derive g hash s).2.pending = s.pending ∧ (derive g hash s).2.now = s.now ∧ (derive g hash s).2.draws = s.draws
      ∧ (derive g hash s).2.fsl = s.fsl ∧ (derive g hash s).2.rsu = s.rsu ∧ (derive g hash s).2.dpx = s.dpx
      ∧ (derive g hash s).2.twr = s.twr ∧ (derive g hash s).2.rwk = s.rwk ∧ (derive g hash s).2.uma = s.uma
      ∧ (derive g hash s).2.evu = s.evu ∧ (derive g hash s).2.cme = s.cme ∧ (derive g hash s).2.out = s.out := by
  generalize ht : (derive g hash s).2 = t
  unfold derive at ht
  split at ht
  · dsimp only at ht; subst ht; simp
  · split at ht
    rename_i heq
    replace heq := congrArg Prod.snd heq
    dsimp only at heq
    split at ht
    · split at ht <;> rename_i heq2 <;> replace heq2 := congrArg Prod.snd heq2 <;> dsimp only at heq2
      · dsimp only at ht; subst ht heq2 heq; simp
      · subst ht heq2 heq; simp
    · subst ht heq; simp
    · split at ht <;> rename_i heq2 <;> replace heq2 := congrArg Prod.snd heq2 <;> dsimp only at heq2
      · subst ht heq2 heq; simp
      · split at ht
        · dsimp only at ht; subst ht heq2 heq; simp
        · subst ht heq2 heq; simp

@[simp] theorem countPassed_frame (us : List Nat) (s : State) :
    (countPassed us s).pending = s.pending ∧ (countPassed us s).now = s.now ∧ (countPassed us s).draws = s.draws
      ∧ (countPassed us s).fsl = s.fsl ∧ (countPassed us s).groups = s.groups ∧ (countPassed us s).adjs = s.adjs
      ∧ (countPassed us s).dpx = s.dpx ∧ (countPassed us s).twr = s.twr ∧ (countPassed us s).rwk = s.rwk
      ∧ (countPassed us s).uma = s.uma ∧ (countPassed us s).evu = s.evu ∧ (countPassed us s).rck = s.rck
      ∧ (countPassed us s).cme = s.cme ∧ (countPassed us s).nfu = s.nfu ∧ (countPassed us s).out = s.out := by
  simp [countPassed]

@[simp] theorem takeRequest_frame (tag : Byte) (g : Nat) (hash : Nat) (s : State) :
    (takeRequest tag g hash s).pending = s.pending ∧ (takeRequest tag g hash s).now = s.now
      ∧ (takeRequest tag g hash s).draws = s.draws ∧ (takeRequest tag g hash s).fsl = s.fsl
      ∧ (takeRequest tag g hash s).dpx = s.dpx ∧ (takeRequest tag g hash s).twr = s.twr
      ∧ (takeRequest tag g hash s).rwk = s.rwk ∧ (takeRequest tag g hash s).uma = s.uma
      ∧ (takeRequest tag g hash s).evu = s.evu ∧ (takeRequest tag g hash s).cme = s.cme
      ∧ (takeRequest tag g hash s).out = s.out := by
  generalize ht : (takeRequest tag g hash s) = t
  unfold takeRequest at ht
  repeat' split at ht
  all_goals
    (try simp only [Prod.ext_iff] at *)
    (try casesm* _ ∧ _)
    (try subst_vars)
    simp


/-! ### Link -/

@[simp] theorem giveMessage_frame (m : TxMsg) (s : State) :
    (giveMessage m s).pending = s.pending ∧ (giveMessage m s).now = s.now ∧ (giveMessage m s).draws = s.draws
      ∧ (giveMessage m s).rsu = s.rsu ∧ (giveMessage m s).groups = s.groups ∧ (giveMessage m s).adjs = s.adjs
      ∧ (giveMessage m s).dpx = s.dpx ∧ (giveMessage m s).twr = s.twr ∧ (giveMessage m s).rwk = s.rwk
      ∧ (giveMessage m s).uma = s.uma ∧ (giveMessage m s).evu = s.evu ∧ (giveMessage m s).rck = s.rck
      ∧ (giveMessage m s).cme = s.cme ∧ (giveMessage m s).nfu = s.nfu ∧ (giveMessage m s).out = s.out := by
  generalize ht : (giveMessage m s) = t
  unfold giveMessage at ht
  repeat' split at ht
  all_goals
    (try subst_vars)
    simp

@[simp] theorem setLink_frame (l : LinkState) (s : State) :
    (setLink l s).pending = s.pending ∧ (setLink l s).now = s.now ∧ (setLink l s).draws = s.draws
      ∧ (setLink l s).rsu = s.rsu ∧ (setLink l s).groups = s.groups ∧ (setLink l s).adjs = s.adjs
      ∧ (setLink l s).dpx = s.dpx ∧ (setLink l s).twr = s.twr ∧ (setLink l s).rwk = s.rwk
      ∧ (setLink l s).uma = s.uma ∧ (setLink l s).evu = s.evu ∧ (setLink l s).rck = s.rck
      ∧ (setLink l s).cme = s.cme ∧ (setLink l s).out = s.out := by
  simp [setLink]

@[simp] theorem linkDown_frame (s : State) :
    (linkDown s).pending = s.pending ∧ (linkDown s).now = s.now ∧ (linkDown s).draws = s.draws
      ∧ (linkDown s).groups = s.groups ∧ (linkDown s).adjs = s.adjs ∧ (linkDown s).dpx = s.dpx
      ∧ (linkDown s).twr = s.twr ∧ (linkDown s).rwk = s.rwk ∧ (linkDown s).uma = s.uma ∧ (linkDown s).evu = s.evu
      ∧ (linkDown s).rck = s.rck ∧ (linkDown s).cme = s.cme ∧ (linkDown s).out = s.out := by
  generalize ht : (linkDown s) = t
  unfold linkDown at ht
  repeat' split at ht
  all_goals
    (try subst_vars)
    simp

@[simp] theorem goodMessage_frame (x0 : State) :
    (goodMessage x0).pending = x0.pending ∧ (goodMessage x0).now = x0.now ∧ (goodMessage x0).draws = x0.draws
      ∧ (goodMessage x0).rsu = x0.rsu ∧ (goodMessage x0).groups = x0.groups ∧ (goodMessage x0).adjs = x0.adjs
      ∧ (goodMessage x0).dpx = x0.dpx ∧ (goodMessage x0).twr = x0.twr ∧ (goodMessage x0).rwk = x0.rwk
      ∧ (goodMessage x0).uma = x0.uma ∧ (goodMessage x0).evu = x0.evu ∧ (goodMessage x0).rck = x0.rck
      ∧ (goodMessage x0).cme = x0.cme ∧ (goodMessage x0).nfu = x0.nfu ∧ (goodMessage x0).out = x0.out := by
  simp [goodMessage]

@[simp] theorem requestOverrun_frame (x0 : State) :
    (requestOverrun x0).pending = x0.pending ∧ (requestOverrun x0).now = x0.now
      ∧ (requestOverrun x0).draws = x0.draws ∧ (requestOverrun x0).rsu = x0.rsu
      ∧ (requestOverrun x0).groups = x0.groups ∧ (requestOverrun x0).adjs = x0.adjs
      ∧ (requestOverrun x0).dpx = x0.dpx ∧ (requestOverrun x0).twr = x0.twr ∧ (requestOverrun x0).rwk = x0.rwk
      ∧ (requestOverrun x0).uma = x0.uma ∧ (requestOverrun x0).evu = x0.evu ∧ (requestOverrun x0).rck = x0.rck
      ∧ (requestOverrun x0).cme = x0.cme ∧ (requestOverrun x0).nfu = x0.nfu ∧ (requestOverrun x0).out = x0.out := by
  simp [requestOverrun]

@[simp] theorem spendCredit_frame (x0 : State) :
    (spendCredit x0).pending = x0.pending ∧ (spendCredit x0).now = x0.now ∧ (spendCredit x0).draws = x0.draws
      ∧ (spendCredit x0).rsu = x0.rsu ∧ (spendCredit x0).groups = x0.groups ∧ (spendCredit x0).adjs = x0.adjs
      ∧ (spendCredit x0).dpx = x0.dpx ∧ (spendCredit x0).twr = x0.twr ∧ (spendCredit x0).rwk = x0.rwk
      ∧ (spendCredit x0).uma = x0.uma ∧ (spendCredit x0).evu = x0.evu ∧ (spendCredit x0).rck = x0.rck
      ∧ (spendCredit x0).cme = x0.cme ∧ (spendCredit x0).nfu = x0.nfu ∧ (spendCredit x0).out = x0.out := by
  simp [spendCredit]

@[simp] theorem returnCredits_frame (n : Nat) (x0 : State) :
    (returnCredits n x0).pending = x0.pending ∧ (returnCredits n x0).now = x0.now
      ∧ (returnCredits n x0).draws = x0.draws ∧ (returnCredits n x0).rsu = x0.rsu
      ∧ (returnCredits n x0).groups = x0.groups ∧ (returnCredits n x0).adjs = x0.adjs
      ∧ (returnCredits n x0).dpx = x0.dpx ∧ (returnCredits n x0).twr = x0.twr ∧ (returnCredits n x0).rwk = x0.rwk
      ∧ (returnCredits n x0).uma = x0.uma ∧ (returnCredits n x0).evu = x0.evu ∧ (returnCredits n x0).rck = x0.rck
      ∧ (returnCredits n x0).cme = x0.cme ∧ (returnCredits n x0).nfu = x0.nfu ∧ (returnCredits n x0).out = x0.out := by
  simp [returnCredits]

@[simp] theorem holdPort_frame (p : Nat) (s : State) :
    (holdPort p s).pending = s.pending ∧ (holdPort p s).now = s.now ∧ (holdPort p s).draws = s.draws
      ∧ (holdPort p s).rsu = s.rsu ∧ (holdPort p s).groups = s.groups ∧ (holdPort p s).adjs = s.adjs
      ∧ (holdPort p s).dpx = s.dpx ∧ (holdPort p s).twr = s.twr ∧ (holdPort p s).rwk = s.rwk
      ∧ (holdPort p s).uma = s.uma ∧ (holdPort p s).rck = s.rck ∧ (holdPort p s).cme = s.cme
      ∧ (holdPort p s).nfu = s.nfu ∧ (holdPort p s).out = s.out := by
  generalize ht : (holdPort p s) = t
  unfold holdPort at ht
  dsimp only at ht
  repeat' split at ht
  all_goals
    (try subst_vars)
    simp

@[simp] theorem releasePort_frame (p : Nat) (s : State) :
    (releasePort p s).pending = s.pending ∧ (releasePort p s).now = s.now ∧ (releasePort p s).draws = s.draws
      ∧ (releasePort p s).rsu = s.rsu ∧ (releasePort p s).groups = s.groups ∧ (releasePort p s).adjs = s.adjs
      ∧ (releasePort p s).dpx = s.dpx ∧ (releasePort p s).twr = s.twr ∧ (releasePort p s).rwk = s.rwk
      ∧ (releasePort p s).uma = s.uma ∧ (releasePort p s).rck = s.rck ∧ (releasePort p s).cme = s.cme
      ∧ (releasePort p s).nfu = s.nfu ∧ (releasePort p s).out = s.out := by
  generalize ht : (releasePort p s) = t
  unfold releasePort at ht
  dsimp only at ht
  repeat' split at ht
  all_goals
    (try subst_vars)
    simp

@[simp] theorem holdFor_frame (m : Monitor) (s : State) :
    (holdFor m s).pending = s.pending ∧ (holdFor m s).now = s.now ∧ (holdFor m s).draws = s.draws
      ∧ (holdFor m s).rsu = s.rsu ∧ (holdFor m s).groups = s.groups ∧ (holdFor m s).adjs = s.adjs
      ∧ (holdFor m s).dpx = s.dpx ∧ (holdFor m s).twr = s.twr ∧ (holdFor m s).rwk = s.rwk
      ∧ (holdFor m s).uma = s.uma ∧ (holdFor m s).rck = s.rck ∧ (holdFor m s).cme = s.cme
      ∧ (holdFor m s).nfu = s.nfu ∧ (holdFor m s).out = s.out := by
  generalize ht : (holdFor m s) = t
  unfold holdFor at ht
  repeat' split at ht
  all_goals
    (try subst_vars)
    simp

@[simp] theorem releaseFor_frame (m : Monitor) (s : State) :
    (releaseFor m s).pending = s.pending ∧ (releaseFor m s).now = s.now ∧ (releaseFor m s).draws = s.draws
      ∧ (releaseFor m s).rsu = s.rsu ∧ (releaseFor m s).groups = s.groups ∧ (releaseFor m s).adjs = s.adjs
      ∧ (releaseFor m s).dpx = s.dpx ∧ (releaseFor m s).twr = s.twr ∧ (releaseFor m s).rwk = s.rwk
      ∧ (releaseFor m s).uma = s.uma ∧ (releaseFor m s).rck = s.rck ∧ (releaseFor m s).cme = s.cme
      ∧ (releaseFor m s).nfu = s.nfu ∧ (releaseFor m s).out = s.out := by
  generalize ht : (releaseFor m s) = t
  unfold releaseFor at ht
  repeat' split at ht
  all_goals
    (try subst_vars)
    simp


/-! ### Monitor -/

@[simp] theorem sendProbe_frame (n : Nat) (s : State) :
    (sendProbe n s).pending = s.pending ∧ (sendProbe n s).now = s.now ∧ (sendProbe n s).draws = s.draws
      ∧ (sendProbe n s).rsu = s.rsu ∧ (sendProbe n s).groups = s.groups ∧ (sendProbe n s).adjs = s.adjs
      ∧ (sendProbe n s).dpx = s.dpx ∧ (sendProbe n s).twr = s.twr ∧ (sendProbe n s).rwk = s.rwk
      ∧ (sendProbe n s).evu = s.evu ∧ (sendProbe n s).rck = s.rck ∧ (sendProbe n s).cme = s.cme
      ∧ (sendProbe n s).nfu = s.nfu ∧ (sendProbe n s).out = s.out := by
  generalize ht : (sendProbe n s) = t
  unfold sendProbe at ht
  dsimp only at ht
  repeat' split at ht
  all_goals
    (try subst_vars)
    simp

@[simp] theorem noteLiveness_frame (n : Nat) (before : Bool) (s : State) :
    (noteLiveness n before s).pending = s.pending ∧ (noteLiveness n before s).now = s.now
      ∧ (noteLiveness n before s).draws = s.draws ∧ (noteLiveness n before s).fsl = s.fsl
      ∧ (noteLiveness n before s).rsu = s.rsu ∧ (noteLiveness n before s).groups = s.groups
      ∧ (noteLiveness n before s).adjs = s.adjs ∧ (noteLiveness n before s).dpx = s.dpx
      ∧ (noteLiveness n before s).twr = s.twr ∧ (noteLiveness n before s).evu = s.evu
      ∧ (noteLiveness n before s).rck = s.rck ∧ (noteLiveness n before s).cme = s.cme
      ∧ (noteLiveness n before s).out = s.out := by
  generalize ht : (noteLiveness n before s) = t
  unfold noteLiveness at ht
  repeat' split at ht
  all_goals
    (try subst_vars)
    simp

@[simp] theorem setLos_frame (n : Nat) (v : Bool) (s : State) :
    (setLos n v s).pending = s.pending ∧ (setLos n v s).now = s.now ∧ (setLos n v s).draws = s.draws
      ∧ (setLos n v s).fsl = s.fsl ∧ (setLos n v s).rsu = s.rsu ∧ (setLos n v s).groups = s.groups
      ∧ (setLos n v s).adjs = s.adjs ∧ (setLos n v s).dpx = s.dpx ∧ (setLos n v s).twr = s.twr
      ∧ (setLos n v s).rwk = s.rwk ∧ (setLos n v s).evu = s.evu ∧ (setLos n v s).rck = s.rck
      ∧ (setLos n v s).cme = s.cme ∧ (setLos n v s).out = s.out := by
  generalize ht : (setLos n v s) = t
  unfold setLos at ht
  dsimp only at ht
  repeat' split at ht
  all_goals
    (try subst_vars)
    simp

@[simp] theorem setPortDown_frame (n : Nat) (v : Bool) (s : State) :
    (setPortDown n v s).pending = s.pending ∧ (setPortDown n v s).now = s.now ∧ (setPortDown n v s).draws = s.draws
      ∧ (setPortDown n v s).fsl = s.fsl ∧ (setPortDown n v s).rsu = s.rsu ∧ (setPortDown n v s).groups = s.groups
      ∧ (setPortDown n v s).adjs = s.adjs ∧ (setPortDown n v s).dpx = s.dpx ∧ (setPortDown n v s).twr = s.twr
      ∧ (setPortDown n v s).rwk = s.rwk ∧ (setPortDown n v s).evu = s.evu ∧ (setPortDown n v s).rck = s.rck
      ∧ (setPortDown n v s).cme = s.cme ∧ (setPortDown n v s).out = s.out := by
  generalize ht : (setPortDown n v s) = t
  unfold setPortDown at ht
  dsimp only at ht
  repeat' split at ht
  all_goals
    (try subst_vars)
    simp

@[simp] theorem evidenceEvent_frame (n : Nat) (s : State) :
    (evidenceEvent n s).pending = s.pending ∧ (evidenceEvent n s).now = s.now ∧ (evidenceEvent n s).draws = s.draws
      ∧ (evidenceEvent n s).fsl = s.fsl ∧ (evidenceEvent n s).rsu = s.rsu ∧ (evidenceEvent n s).groups = s.groups
      ∧ (evidenceEvent n s).adjs = s.adjs ∧ (evidenceEvent n s).dpx = s.dpx ∧ (evidenceEvent n s).twr = s.twr
      ∧ (evidenceEvent n s).rwk = s.rwk ∧ (evidenceEvent n s).evu = s.evu ∧ (evidenceEvent n s).rck = s.rck
      ∧ (evidenceEvent n s).cme = s.cme ∧ (evidenceEvent n s).nfu = s.nfu ∧ (evidenceEvent n s).out = s.out := by
  simp [evidenceEvent]

@[simp] theorem enterDown_frame (n : Nat) (why : Reason) (s : State) :
    (enterDown n why s).pending = s.pending ∧ (enterDown n why s).now = s.now ∧ (enterDown n why s).draws = s.draws
      ∧ (enterDown n why s).rsu = s.rsu ∧ (enterDown n why s).groups = s.groups ∧ (enterDown n why s).adjs = s.adjs
      ∧ (enterDown n why s).dpx = s.dpx ∧ (enterDown n why s).twr = s.twr ∧ (enterDown n why s).rck = s.rck
      ∧ (enterDown n why s).cme = s.cme ∧ (enterDown n why s).out = s.out := by
  simp [enterDown]

@[simp] theorem exitDown_frame (n : Nat) (s : State) :
    (exitDown n s).pending = s.pending ∧ (exitDown n s).now = s.now ∧ (exitDown n s).draws = s.draws
      ∧ (exitDown n s).rsu = s.rsu ∧ (exitDown n s).groups = s.groups ∧ (exitDown n s).adjs = s.adjs
      ∧ (exitDown n s).dpx = s.dpx ∧ (exitDown n s).twr = s.twr ∧ (exitDown n s).rwk = s.rwk
      ∧ (exitDown n s).rck = s.rck ∧ (exitDown n s).cme = s.cme ∧ (exitDown n s).nfu = s.nfu
      ∧ (exitDown n s).out = s.out := by
  simp [exitDown]

@[simp] theorem checkDown_frame (n : Nat) (peer : Bool) (s : State) :
    (checkDown n peer s).pending = s.pending ∧ (checkDown n peer s).now = s.now
      ∧ (checkDown n peer s).draws = s.draws ∧ (checkDown n peer s).rsu = s.rsu
      ∧ (checkDown n peer s).groups = s.groups ∧ (checkDown n peer s).adjs = s.adjs
      ∧ (checkDown n peer s).dpx = s.dpx ∧ (checkDown n peer s).twr = s.twr ∧ (checkDown n peer s).rck = s.rck
      ∧ (checkDown n peer s).cme = s.cme ∧ (checkDown n peer s).out = s.out := by
  generalize ht : (checkDown n peer s) = t
  unfold checkDown at ht
  dsimp only at ht
  repeat' split at ht
  all_goals
    (try subst_vars)
    simp

@[simp] theorem enterSuspect_frame (n : Nat) (why : Reason) (s : State) :
    (enterSuspect n why s).pending = s.pending ∧ (enterSuspect n why s).now = s.now
      ∧ (enterSuspect n why s).draws = s.draws ∧ (enterSuspect n why s).fsl = s.fsl
      ∧ (enterSuspect n why s).rsu = s.rsu ∧ (enterSuspect n why s).groups = s.groups
      ∧ (enterSuspect n why s).adjs = s.adjs ∧ (enterSuspect n why s).dpx = s.dpx
      ∧ (enterSuspect n why s).twr = s.twr ∧ (enterSuspect n why s).evu = s.evu ∧ (enterSuspect n why s).rck = s.rck
      ∧ (enterSuspect n why s).cme = s.cme ∧ (enterSuspect n why s).out = s.out := by
  simp [enterSuspect]

@[simp] theorem clearSuspect_frame (n : Nat) (s : State) :
    (clearSuspect n s).pending = s.pending ∧ (clearSuspect n s).now = s.now ∧ (clearSuspect n s).draws = s.draws
      ∧ (clearSuspect n s).fsl = s.fsl ∧ (clearSuspect n s).rsu = s.rsu ∧ (clearSuspect n s).groups = s.groups
      ∧ (clearSuspect n s).adjs = s.adjs ∧ (clearSuspect n s).dpx = s.dpx ∧ (clearSuspect n s).twr = s.twr
      ∧ (clearSuspect n s).evu = s.evu ∧ (clearSuspect n s).rck = s.rck ∧ (clearSuspect n s).cme = s.cme
      ∧ (clearSuspect n s).out = s.out := by
  simp [clearSuspect]

@[simp] theorem checkSuspect_frame (n : Nat) (s : State) :
    (checkSuspect n s).pending = s.pending ∧ (checkSuspect n s).now = s.now ∧ (checkSuspect n s).draws = s.draws
      ∧ (checkSuspect n s).fsl = s.fsl ∧ (checkSuspect n s).rsu = s.rsu ∧ (checkSuspect n s).groups = s.groups
      ∧ (checkSuspect n s).adjs = s.adjs ∧ (checkSuspect n s).dpx = s.dpx ∧ (checkSuspect n s).twr = s.twr
      ∧ (checkSuspect n s).evu = s.evu ∧ (checkSuspect n s).rck = s.rck ∧ (checkSuspect n s).cme = s.cme
      ∧ (checkSuspect n s).out = s.out := by
  generalize ht : (checkSuspect n s) = t
  unfold checkSuspect at ht
  dsimp only at ht
  repeat' split at ht
  all_goals
    (try subst_vars)
    simp

@[simp] theorem evaluate_frame (n : Nat) (peer : Bool) (s : State) :
    (evaluate n peer s).pending = s.pending ∧ (evaluate n peer s).now = s.now ∧ (evaluate n peer s).draws = s.draws
      ∧ (evaluate n peer s).rsu = s.rsu ∧ (evaluate n peer s).groups = s.groups ∧ (evaluate n peer s).adjs = s.adjs
      ∧ (evaluate n peer s).dpx = s.dpx ∧ (evaluate n peer s).twr = s.twr ∧ (evaluate n peer s).rck = s.rck
      ∧ (evaluate n peer s).cme = s.cme ∧ (evaluate n peer s).out = s.out := by
  simp [evaluate]

@[simp] theorem completeQualify_frame (n : Nat) (s : State) :
    (completeQualify n s).pending = s.pending ∧ (completeQualify n s).now = s.now
      ∧ (completeQualify n s).draws = s.draws ∧ (completeQualify n s).rsu = s.rsu
      ∧ (completeQualify n s).groups = s.groups ∧ (completeQualify n s).adjs = s.adjs
      ∧ (completeQualify n s).dpx = s.dpx ∧ (completeQualify n s).twr = s.twr ∧ (completeQualify n s).evu = s.evu
      ∧ (completeQualify n s).rck = s.rck ∧ (completeQualify n s).cme = s.cme ∧ (completeQualify n s).out = s.out := by
  generalize ht : (completeQualify n s) = t
  unfold completeQualify at ht
  all_goals
    (try subst_vars)
    simp

@[simp] theorem beginQualify_frame (n : Nat) (newLos : Bool) (newPort : Bool) (s : State) :
    (beginQualify n newLos newPort s).pending = s.pending ∧ (beginQualify n newLos newPort s).now = s.now
      ∧ (beginQualify n newLos newPort s).draws = s.draws ∧ (beginQualify n newLos newPort s).rsu = s.rsu
      ∧ (beginQualify n newLos newPort s).groups = s.groups ∧ (beginQualify n newLos newPort s).adjs = s.adjs
      ∧ (beginQualify n newLos newPort s).dpx = s.dpx ∧ (beginQualify n newLos newPort s).twr = s.twr
      ∧ (beginQualify n newLos newPort s).rck = s.rck ∧ (beginQualify n newLos newPort s).cme = s.cme
      ∧ (beginQualify n newLos newPort s).out = s.out := by
  generalize ht : (beginQualify n newLos newPort s) = t
  unfold beginQualify at ht
  dsimp only at ht
  repeat' split at ht
  all_goals
    (try subst_vars)
    simp

@[simp] theorem enterQualify_frame (n : Nat) (fromDisabled : Bool) (why : Reason) (s : State) :
    (enterQualify n fromDisabled why s).pending = s.pending ∧ (enterQualify n fromDisabled why s).now = s.now
      ∧ (enterQualify n fromDisabled why s).draws = s.draws ∧ (enterQualify n fromDisabled why s).rsu = s.rsu
      ∧ (enterQualify n fromDisabled why s).groups = s.groups ∧ (enterQualify n fromDisabled why s).adjs = s.adjs
      ∧ (enterQualify n fromDisabled why s).dpx = s.dpx ∧ (enterQualify n fromDisabled why s).twr = s.twr
      ∧ (enterQualify n fromDisabled why s).rck = s.rck ∧ (enterQualify n fromDisabled why s).cme = s.cme
      ∧ (enterQualify n fromDisabled why s).out = s.out := by
  generalize ht : (enterQualify n fromDisabled why s) = t
  unfold enterQualify at ht
  repeat' split at ht
  all_goals
    (try subst_vars)
    simp

@[simp] theorem disableMonitor_frame (n : Nat) (s : State) :
    (disableMonitor n s).pending = s.pending ∧ (disableMonitor n s).now = s.now
      ∧ (disableMonitor n s).draws = s.draws ∧ (disableMonitor n s).rsu = s.rsu
      ∧ (disableMonitor n s).groups = s.groups ∧ (disableMonitor n s).adjs = s.adjs
      ∧ (disableMonitor n s).dpx = s.dpx ∧ (disableMonitor n s).twr = s.twr ∧ (disableMonitor n s).rck = s.rck
      ∧ (disableMonitor n s).cme = s.cme ∧ (disableMonitor n s).out = s.out := by
  simp [disableMonitor]

@[simp] theorem setLatchFromLine_frame (n : Nat) (s : State) :
    (setLatchFromLine n s).pending = s.pending ∧ (setLatchFromLine n s).now = s.now
      ∧ (setLatchFromLine n s).draws = s.draws ∧ (setLatchFromLine n s).fsl = s.fsl
      ∧ (setLatchFromLine n s).rsu = s.rsu ∧ (setLatchFromLine n s).groups = s.groups
      ∧ (setLatchFromLine n s).adjs = s.adjs ∧ (setLatchFromLine n s).dpx = s.dpx
      ∧ (setLatchFromLine n s).twr = s.twr ∧ (setLatchFromLine n s).rwk = s.rwk ∧ (setLatchFromLine n s).evu = s.evu
      ∧ (setLatchFromLine n s).rck = s.rck ∧ (setLatchFromLine n s).cme = s.cme ∧ (setLatchFromLine n s).nfu = s.nfu
      ∧ (setLatchFromLine n s).out = s.out := by
  simp [setLatchFromLine]

@[simp] theorem endSuppression_frame (n : Nat) (los : Bool) (port : Bool) (s : State) :
    (endSuppression n los port s).pending = s.pending ∧ (endSuppression n los port s).now = s.now
      ∧ (endSuppression n los port s).draws = s.draws ∧ (endSuppression n los port s).rsu = s.rsu
      ∧ (endSuppression n los port s).groups = s.groups ∧ (endSuppression n los port s).adjs = s.adjs
      ∧ (endSuppression n los port s).dpx = s.dpx ∧ (endSuppression n los port s).twr = s.twr
      ∧ (endSuppression n los port s).rck = s.rck ∧ (endSuppression n los port s).cme = s.cme
      ∧ (endSuppression n los port s).out = s.out := by
  generalize ht : (endSuppression n los port s) = t
  unfold endSuppression at ht
  dsimp only at ht
  repeat' split at ht
  all_goals
    (try subst_vars)
    simp

@[simp] theorem damageMonitor_frame (n : Nat) (s : State) :
    (damageMonitor n s).pending = s.pending ∧ (damageMonitor n s).now = s.now ∧ (damageMonitor n s).draws = s.draws
      ∧ (damageMonitor n s).rsu = s.rsu ∧ (damageMonitor n s).groups = s.groups ∧ (damageMonitor n s).adjs = s.adjs
      ∧ (damageMonitor n s).dpx = s.dpx ∧ (damageMonitor n s).twr = s.twr ∧ (damageMonitor n s).rck = s.rck
      ∧ (damageMonitor n s).cme = s.cme ∧ (damageMonitor n s).out = s.out := by
  generalize ht : (damageMonitor n s) = t
  unfold damageMonitor at ht
  dsimp only at ht
  repeat' split at ht
  all_goals
    (try subst_vars)
    simp

@[simp] theorem readMonitorRecord_frame (n : Nat) (s : State) :
    (readMonitorRecord n s).pending = s.pending ∧ (readMonitorRecord n s).now = s.now
      ∧ (readMonitorRecord n s).draws = s.draws ∧ (readMonitorRecord n s).rsu = s.rsu
      ∧ (readMonitorRecord n s).groups = s.groups ∧ (readMonitorRecord n s).adjs = s.adjs
      ∧ (readMonitorRecord n s).dpx = s.dpx ∧ (readMonitorRecord n s).twr = s.twr
      ∧ (readMonitorRecord n s).cme = s.cme ∧ (readMonitorRecord n s).out = s.out := by
  generalize ht : (readMonitorRecord n s) = t
  unfold readMonitorRecord at ht
  repeat' split at ht
  all_goals
    (try simp only [Prod.ext_iff] at *)
    (try casesm* _ ∧ _)
    (try subst_vars)
    simp

@[simp] theorem takePortCleared_frame (p : Nat) (n : Nat) (s : State) :
    (takePortCleared p n s).pending = s.pending ∧ (takePortCleared p n s).now = s.now
      ∧ (takePortCleared p n s).draws = s.draws ∧ (takePortCleared p n s).rsu = s.rsu
      ∧ (takePortCleared p n s).groups = s.groups ∧ (takePortCleared p n s).adjs = s.adjs
      ∧ (takePortCleared p n s).dpx = s.dpx ∧ (takePortCleared p n s).twr = s.twr
      ∧ (takePortCleared p n s).cme = s.cme ∧ (takePortCleared p n s).out = s.out := by
  generalize ht : (takePortCleared p n s) = t
  unfold takePortCleared at ht
  dsimp only at ht
  repeat' split at ht
  all_goals
    (try subst_vars)
    simp


theorem eachMonitor_keeps {α : Type} (π : State → α) (l : List Nat) (f : Nat → State → State)
    (hf : ∀ n s, π (f n s) = π s) (hw : ∀ s, π (wakeWalker s) = π s) (hd : ∀ s, π (draw s) = π s) (s : State) :
    π (eachMonitor l f s) = π s := by
  unfold eachMonitor
  rw [forEach_keeps π _ _ (fun n s => by rw [hw, hf])]
  split
  · rfl
  · exact hd s

@[simp] theorem eachMonitor_pending (l : List Nat) (f : Nat → State → State) (h : ∀ n s, (f n s).pending = s.pending) (s : State) :
    (eachMonitor l f s).pending = s.pending := eachMonitor_keeps (·.pending) l f h (by simp) (by simp) s
@[simp] theorem eachMonitor_now (l : List Nat) (f : Nat → State → State) (h : ∀ n s, (f n s).now = s.now) (s : State) :
    (eachMonitor l f s).now = s.now := eachMonitor_keeps (·.now) l f h (by simp) (by simp) s
@[simp] theorem eachMonitor_fsl (l : List Nat) (f : Nat → State → State) (h : ∀ n s, (f n s).fsl = s.fsl) (s : State) :
    (eachMonitor l f s).fsl = s.fsl := eachMonitor_keeps (·.fsl) l f h (by simp) (by simp) s
@[simp] theorem eachMonitor_rsu (l : List Nat) (f : Nat → State → State) (h : ∀ n s, (f n s).rsu = s.rsu) (s : State) :
    (eachMonitor l f s).rsu = s.rsu := eachMonitor_keeps (·.rsu) l f h (by simp) (by simp) s
@[simp] theorem eachMonitor_groups (l : List Nat) (f : Nat → State → State) (h : ∀ n s, (f n s).groups = s.groups) (s : State) :
    (eachMonitor l f s).groups = s.groups := eachMonitor_keeps (·.groups) l f h (by simp) (by simp) s
@[simp] theorem eachMonitor_adjs (l : List Nat) (f : Nat → State → State) (h : ∀ n s, (f n s).adjs = s.adjs) (s : State) :
    (eachMonitor l f s).adjs = s.adjs := eachMonitor_keeps (·.adjs) l f h (by simp) (by simp) s
@[simp] theorem eachMonitor_dpx (l : List Nat) (f : Nat → State → State) (h : ∀ n s, (f n s).dpx = s.dpx) (s : State) :
    (eachMonitor l f s).dpx = s.dpx := eachMonitor_keeps (·.dpx) l f h (by simp) (by simp) s
@[simp] theorem eachMonitor_uma (l : List Nat) (f : Nat → State → State) (h : ∀ n s, (f n s).uma = s.uma) (s : State) :
    (eachMonitor l f s).uma = s.uma := eachMonitor_keeps (·.uma) l f h (by simp) (by simp) s
@[simp] theorem eachMonitor_evu (l : List Nat) (f : Nat → State → State) (h : ∀ n s, (f n s).evu = s.evu) (s : State) :
    (eachMonitor l f s).evu = s.evu := eachMonitor_keeps (·.evu) l f h (by simp) (by simp) s
@[simp] theorem eachMonitor_rck (l : List Nat) (f : Nat → State → State) (h : ∀ n s, (f n s).rck = s.rck) (s : State) :
    (eachMonitor l f s).rck = s.rck := eachMonitor_keeps (·.rck) l f h (by simp) (by simp) s
@[simp] theorem eachMonitor_cme (l : List Nat) (f : Nat → State → State) (h : ∀ n s, (f n s).cme = s.cme) (s : State) :
    (eachMonitor l f s).cme = s.cme := eachMonitor_keeps (·.cme) l f h (by simp) (by simp) s
@[simp] theorem eachMonitor_nfu (l : List Nat) (f : Nat → State → State) (h : ∀ n s, (f n s).nfu = s.nfu) (s : State) :
    (eachMonitor l f s).nfu = s.nfu := eachMonitor_keeps (·.nfu) l f h (by simp) (by simp) s
@[simp] theorem eachMonitor_out (l : List Nat) (f : Nat → State → State) (h : ∀ n s, (f n s).out = s.out) (s : State) :
    (eachMonitor l f s).out = s.out := eachMonitor_keeps (·.out) l f h (by simp) (by simp) s

@[simp] theorem portCleared_frame (p : Nat) (skip : List Nat) (s : State) :
    (portCleared p skip s).pending = s.pending ∧ (portCleared p skip s).now = s.now
      ∧ (portCleared p skip s).rsu = s.rsu ∧ (portCleared p skip s).groups = s.groups
      ∧ (portCleared p skip s).adjs = s.adjs ∧ (portCleared p skip s).dpx = s.dpx
      ∧ (portCleared p skip s).cme = s.cme ∧ (portCleared p skip s).out = s.out := by
  simp [portCleared]

@[simp] theorem notifyCleared_frame (before : State) (n : Nat) (after : State) :
    (notifyCleared before n after).pending = after.pending ∧ (notifyCleared before n after).now = after.now
      ∧ (notifyCleared before n after).rsu = after.rsu ∧ (notifyCleared before n after).groups = after.groups
      ∧ (notifyCleared before n after).adjs = after.adjs ∧ (notifyCleared before n after).dpx = after.dpx
      ∧ (notifyCleared before n after).cme = after.cme ∧ (notifyCleared before n after).out = after.out := by
  generalize ht : (notifyCleared before n after) = t
  unfold notifyCleared at ht
  repeat' split at ht
  all_goals
    (try subst_vars)
    simp

@[simp] theorem readMonitor_frame (n : Nat) (s : State) :
    (readMonitor n s).pending = s.pending ∧ (readMonitor n s).now = s.now ∧ (readMonitor n s).rsu = s.rsu
      ∧ (readMonitor n s).groups = s.groups ∧ (readMonitor n s).adjs = s.adjs ∧ (readMonitor n s).dpx = s.dpx
      ∧ (readMonitor n s).cme = s.cme ∧ (readMonitor n s).out = s.out := by
  simp [readMonitor]


/-! ### Evidence -/

@[simp] theorem countSuppressed_frame (p : Nat) (x0 : State) :
    (countSuppressed p x0).pending = x0.pending ∧ (countSuppressed p x0).now = x0.now
      ∧ (countSuppressed p x0).draws = x0.draws ∧ (countSuppressed p x0).fsl = x0.fsl
      ∧ (countSuppressed p x0).rsu = x0.rsu ∧ (countSuppressed p x0).groups = x0.groups
      ∧ (countSuppressed p x0).adjs = x0.adjs ∧ (countSuppressed p x0).dpx = x0.dpx
      ∧ (countSuppressed p x0).twr = x0.twr ∧ (countSuppressed p x0).rwk = x0.rwk
      ∧ (countSuppressed p x0).uma = x0.uma ∧ (countSuppressed p x0).rck = x0.rck
      ∧ (countSuppressed p x0).cme = x0.cme ∧ (countSuppressed p x0).nfu = x0.nfu
      ∧ (countSuppressed p x0).out = x0.out := by
  simp [countSuppressed]

@[simp] theorem takeFiltered_frame (l : Nat) (v : Bool) (n : Nat) (s : State) :
    (takeFiltered l v n s).pending = s.pending ∧ (takeFiltered l v n s).now = s.now
      ∧ (takeFiltered l v n s).rsu = s.rsu ∧ (takeFiltered l v n s).groups = s.groups
      ∧ (takeFiltered l v n s).adjs = s.adjs ∧ (takeFiltered l v n s).dpx = s.dpx
      ∧ (takeFiltered l v n s).cme = s.cme ∧ (takeFiltered l v n s).out = s.out := by
  generalize ht : (takeFiltered l v n s) = t
  unfold takeFiltered at ht
  dsimp only at ht
  repeat' split at ht
  all_goals
    (try subst_vars)
    simp

@[simp] theorem deliverFiltered_frame (l : Nat) (v : Bool) (s : State) :
    (deliverFiltered l v s).pending = s.pending ∧ (deliverFiltered l v s).now = s.now
      ∧ (deliverFiltered l v s).rsu = s.rsu ∧ (deliverFiltered l v s).groups = s.groups
      ∧ (deliverFiltered l v s).adjs = s.adjs ∧ (deliverFiltered l v s).dpx = s.dpx
      ∧ (deliverFiltered l v s).cme = s.cme ∧ (deliverFiltered l v s).out = s.out := by
  simp [deliverFiltered]

@[simp] theorem filterAssert_frame (l : Nat) (s : State) :
    (filterAssert l s).pending = s.pending ∧ (filterAssert l s).now = s.now ∧ (filterAssert l s).rsu = s.rsu
      ∧ (filterAssert l s).groups = s.groups ∧ (filterAssert l s).adjs = s.adjs ∧ (filterAssert l s).dpx = s.dpx
      ∧ (filterAssert l s).cme = s.cme ∧ (filterAssert l s).out = s.out := by
  simp [filterAssert]

@[simp] theorem filterClear_frame (l : Nat) (s : State) :
    (filterClear l s).pending = s.pending ∧ (filterClear l s).now = s.now ∧ (filterClear l s).rsu = s.rsu
      ∧ (filterClear l s).groups = s.groups ∧ (filterClear l s).adjs = s.adjs ∧ (filterClear l s).dpx = s.dpx
      ∧ (filterClear l s).cme = s.cme ∧ (filterClear l s).out = s.out := by
  simp [filterClear]

@[simp] theorem rawChange_frame (l : Nat) (v : Bool) (s : State) :
    (rawChange l v s).pending = s.pending ∧ (rawChange l v s).now = s.now ∧ (rawChange l v s).rsu = s.rsu
      ∧ (rawChange l v s).groups = s.groups ∧ (rawChange l v s).adjs = s.adjs ∧ (rawChange l v s).dpx = s.dpx
      ∧ (rawChange l v s).cme = s.cme ∧ (rawChange l v s).out = s.out := by
  generalize ht : (rawChange l v s) = t
  unfold rawChange at ht
  dsimp only at ht
  repeat' split at ht
  all_goals
    (try subst_vars)
    simp

@[simp] theorem reach_frame (e : Nat) (s : State) :
    (reach e s).pending = s.pending ∧ (reach e s).draws = s.draws ∧ (reach e s).fsl = s.fsl
      ∧ (reach e s).rsu = s.rsu ∧ (reach e s).groups = s.groups ∧ (reach e s).adjs = s.adjs
      ∧ (reach e s).dpx = s.dpx ∧ (reach e s).twr = s.twr ∧ (reach e s).rwk = s.rwk ∧ (reach e s).uma = s.uma
      ∧ (reach e s).evu = s.evu ∧ (reach e s).rck = s.rck ∧ (reach e s).cme = s.cme ∧ (reach e s).nfu = s.nfu
      ∧ (reach e s).out = s.out := by
  simp [reach]

@[simp] theorem filterExpiry_frame (l : Nat) (s : State) :
    (filterExpiry l s).pending = s.pending ∧ (filterExpiry l s).rsu = s.rsu ∧ (filterExpiry l s).groups = s.groups
      ∧ (filterExpiry l s).adjs = s.adjs ∧ (filterExpiry l s).dpx = s.dpx ∧ (filterExpiry l s).cme = s.cme
      ∧ (filterExpiry l s).out = s.out := by
  generalize ht : (filterExpiry l s) = t
  unfold filterExpiry at ht
  repeat' split at ht
  all_goals
    (try subst_vars)
    simp

@[simp] theorem takePortEntry_frame (p : Nat) (n : Nat) (s : State) :
    (takePortEntry p n s).pending = s.pending ∧ (takePortEntry p n s).now = s.now
      ∧ (takePortEntry p n s).rsu = s.rsu ∧ (takePortEntry p n s).groups = s.groups
      ∧ (takePortEntry p n s).adjs = s.adjs ∧ (takePortEntry p n s).dpx = s.dpx ∧ (takePortEntry p n s).cme = s.cme
      ∧ (takePortEntry p n s).out = s.out := by
  generalize ht : (takePortEntry p n s) = t
  unfold takePortEntry at ht
  dsimp only at ht
  repeat' split at ht
  all_goals
    (try subst_vars)
    simp

@[simp] theorem takeErrored_frame (p : Nat) (n : Nat) (s : State) :
    (takeErrored p n s).pending = s.pending ∧ (takeErrored p n s).now = s.now ∧ (takeErrored p n s).rsu = s.rsu
      ∧ (takeErrored p n s).groups = s.groups ∧ (takeErrored p n s).adjs = s.adjs ∧ (takeErrored p n s).dpx = s.dpx
      ∧ (takeErrored p n s).cme = s.cme ∧ (takeErrored p n s).out = s.out := by
  generalize ht : (takeErrored p n s) = t
  unfold takeErrored at ht
  dsimp only at ht
  repeat' split at ht
  all_goals
    (try subst_vars)
    simp

@[simp] theorem presentNotice_pending (p : Nat) (f : Nat → State → State) (h : ∀ n s, (f n s).pending = s.pending) (s : State) :
    (presentNotice p f s).pending = s.pending := by
  unfold presentNotice
  rw [eachMonitor_pending _ _ h]
  split <;> simp
@[simp] theorem presentNotice_now (p : Nat) (f : Nat → State → State) (h : ∀ n s, (f n s).now = s.now) (s : State) :
    (presentNotice p f s).now = s.now := by
  unfold presentNotice
  rw [eachMonitor_now _ _ h]
  split <;> simp
@[simp] theorem presentNotice_fsl (p : Nat) (f : Nat → State → State) (h : ∀ n s, (f n s).fsl = s.fsl) (s : State) :
    (presentNotice p f s).fsl = s.fsl := by
  unfold presentNotice
  rw [eachMonitor_fsl _ _ h]
  split <;> simp
@[simp] theorem presentNotice_rsu (p : Nat) (f : Nat → State → State) (h : ∀ n s, (f n s).rsu = s.rsu) (s : State) :
    (presentNotice p f s).rsu = s.rsu := by
  unfold presentNotice
  rw [eachMonitor_rsu _ _ h]
  split <;> simp
@[simp] theorem presentNotice_groups (p : Nat) (f : Nat → State → State) (h : ∀ n s, (f n s).groups = s.groups) (s : State) :
    (presentNotice p f s).groups = s.groups := by
  unfold presentNotice
  rw [eachMonitor_groups _ _ h]
  split <;> simp
@[simp] theorem presentNotice_adjs (p : Nat) (f : Nat → State → State) (h : ∀ n s, (f n s).adjs = s.adjs) (s : State) :
    (presentNotice p f s).adjs = s.adjs := by
  unfold presentNotice
  rw [eachMonitor_adjs _ _ h]
  split <;> simp
@[simp] theorem presentNotice_dpx (p : Nat) (f : Nat → State → State) (h : ∀ n s, (f n s).dpx = s.dpx) (s : State) :
    (presentNotice p f s).dpx = s.dpx := by
  unfold presentNotice
  rw [eachMonitor_dpx _ _ h]
  split <;> simp
@[simp] theorem presentNotice_uma (p : Nat) (f : Nat → State → State) (h : ∀ n s, (f n s).uma = s.uma) (s : State) :
    (presentNotice p f s).uma = s.uma := by
  unfold presentNotice
  rw [eachMonitor_uma _ _ h]
  split <;> simp
@[simp] theorem presentNotice_rck (p : Nat) (f : Nat → State → State) (h : ∀ n s, (f n s).rck = s.rck) (s : State) :
    (presentNotice p f s).rck = s.rck := by
  unfold presentNotice
  rw [eachMonitor_rck _ _ h]
  split <;> simp
@[simp] theorem presentNotice_cme (p : Nat) (f : Nat → State → State) (h : ∀ n s, (f n s).cme = s.cme) (s : State) :
    (presentNotice p f s).cme = s.cme := by
  unfold presentNotice
  rw [eachMonitor_cme _ _ h]
  split <;> simp
@[simp] theorem presentNotice_nfu (p : Nat) (f : Nat → State → State) (h : ∀ n s, (f n s).nfu = s.nfu) (s : State) :
    (presentNotice p f s).nfu = s.nfu := by
  unfold presentNotice
  rw [eachMonitor_nfu _ _ h]
  split <;> simp
@[simp] theorem presentNotice_out (p : Nat) (f : Nat → State → State) (h : ∀ n s, (f n s).out = s.out) (s : State) :
    (presentNotice p f s).out = s.out := by
  unfold presentNotice
  rw [eachMonitor_out _ _ h]
  split <;> simp

@[simp] theorem portNotice_frame (p : Nat) (k : Nat) (s : State) :
    (portNotice p k s).pending = s.pending ∧ (portNotice p k s).now = s.now ∧ (portNotice p k s).rsu = s.rsu
      ∧ (portNotice p k s).groups = s.groups ∧ (portNotice p k s).adjs = s.adjs ∧ (portNotice p k s).dpx = s.dpx
      ∧ (portNotice p k s).cme = s.cme ∧ (portNotice p k s).out = s.out := by
  generalize ht : (portNotice p k s) = t
  unfold portNotice at ht
  repeat' split at ht
  all_goals
    (try subst_vars)
    simp

@[simp] theorem guardExpiry_frame (p : Nat) (s : State) :
    (guardExpiry p s).pending = s.pending ∧ (guardExpiry p s).rsu = s.rsu ∧ (guardExpiry p s).groups = s.groups
      ∧ (guardExpiry p s).adjs = s.adjs ∧ (guardExpiry p s).dpx = s.dpx ∧ (guardExpiry p s).cme = s.cme
      ∧ (guardExpiry p s).out = s.out := by
  generalize ht : (guardExpiry p s) = t
  unfold guardExpiry at ht
  repeat' split at ht
  all_goals
    (try subst_vars)
    simp

@[simp] theorem takeUnknown_frame (n : Nat) (s : State) :
    (takeUnknown n s).pending = s.pending ∧ (takeUnknown n s).now = s.now ∧ (takeUnknown n s).rsu = s.rsu
      ∧ (takeUnknown n s).groups = s.groups ∧ (takeUnknown n s).adjs = s.adjs ∧ (takeUnknown n s).dpx = s.dpx
      ∧ (takeUnknown n s).cme = s.cme ∧ (takeUnknown n s).out = s.out := by
  generalize ht : (takeUnknown n s) = t
  unfold takeUnknown at ht
  repeat' split at ht
  all_goals
    (try subst_vars)
    simp

@[simp] theorem activatePorts_frame (s : State) :
    (activatePorts s).pending = s.pending ∧ (activatePorts s).now = s.now ∧ (activatePorts s).rsu = s.rsu
      ∧ (activatePorts s).groups = s.groups ∧ (activatePorts s).adjs = s.adjs
      ∧ (activatePorts s).dpx = s.dpx ∧ (activatePorts s).cme = s.cme ∧ (activatePorts s).out = s.out := by
  simp [activatePorts]

@[simp] theorem activateSignals_frame (s : State) :
    (activateSignals s).pending = s.pending ∧ (activateSignals s).now = s.now ∧ (activateSignals s).rsu = s.rsu
      ∧ (activateSignals s).groups = s.groups ∧ (activateSignals s).adjs = s.adjs
      ∧ (activateSignals s).dpx = s.dpx ∧ (activateSignals s).cme = s.cme ∧ (activateSignals s).out = s.out := by
  simp [activateSignals]


/-! ### Probe -/

@[simp] theorem strayArrival_frame (x0 : State) :
    (strayArrival x0).pending = x0.pending ∧ (strayArrival x0).now = x0.now ∧ (strayArrival x0).draws = x0.draws
      ∧ (strayArrival x0).fsl = x0.fsl ∧ (strayArrival x0).rsu = x0.rsu ∧ (strayArrival x0).groups = x0.groups
      ∧ (strayArrival x0).adjs = x0.adjs ∧ (strayArrival x0).dpx = x0.dpx ∧ (strayArrival x0).twr = x0.twr
      ∧ (strayArrival x0).rwk = x0.rwk ∧ (strayArrival x0).evu = x0.evu ∧ (strayArrival x0).rck = x0.rck
      ∧ (strayArrival x0).cme = x0.cme ∧ (strayArrival x0).nfu = x0.nfu ∧ (strayArrival x0).out = x0.out := by
  simp [strayArrival]

@[simp] theorem arrivalInQualify_frame (n : Nat) (a : Arrival) (s : State) :
    (arrivalInQualify n a s).pending = s.pending ∧ (arrivalInQualify n a s).now = s.now
      ∧ (arrivalInQualify n a s).draws = s.draws ∧ (arrivalInQualify n a s).rsu = s.rsu
      ∧ (arrivalInQualify n a s).groups = s.groups ∧ (arrivalInQualify n a s).adjs = s.adjs
      ∧ (arrivalInQualify n a s).dpx = s.dpx ∧ (arrivalInQualify n a s).twr = s.twr
      ∧ (arrivalInQualify n a s).evu = s.evu ∧ (arrivalInQualify n a s).rck = s.rck
      ∧ (arrivalInQualify n a s).cme = s.cme ∧ (arrivalInQualify n a s).out = s.out := by
  generalize ht : (arrivalInQualify n a s) = t
  unfold arrivalInQualify at ht
  dsimp only at ht
  repeat' split at ht
  all_goals
    (try subst_vars)
    simp

@[simp] theorem peerDownOccurs_frame (n : Nat) (s : State) :
    (peerDownOccurs n s).pending = s.pending ∧ (peerDownOccurs n s).now = s.now
      ∧ (peerDownOccurs n s).draws = s.draws ∧ (peerDownOccurs n s).fsl = s.fsl ∧ (peerDownOccurs n s).rsu = s.rsu
      ∧ (peerDownOccurs n s).groups = s.groups ∧ (peerDownOccurs n s).adjs = s.adjs
      ∧ (peerDownOccurs n s).dpx = s.dpx ∧ (peerDownOccurs n s).twr = s.twr ∧ (peerDownOccurs n s).rwk = s.rwk
      ∧ (peerDownOccurs n s).evu = s.evu ∧ (peerDownOccurs n s).rck = s.rck ∧ (peerDownOccurs n s).cme = s.cme
      ∧ (peerDownOccurs n s).out = s.out := by
  generalize ht : (peerDownOccurs n s) = t
  unfold peerDownOccurs at ht
  dsimp only at ht
  repeat' split at ht
  all_goals
    (try subst_vars)
    simp

@[simp] theorem arrivalInService_frame (n : Nat) (a : Arrival) (s : State) :
    (arrivalInService n a s).2.pending = s.pending ∧ (arrivalInService n a s).2.now = s.now
      ∧ (arrivalInService n a s).2.draws = s.draws ∧ (arrivalInService n a s).2.fsl = s.fsl
      ∧ (arrivalInService n a s).2.rsu = s.rsu ∧ (arrivalInService n a s).2.groups = s.groups
      ∧ (arrivalInService n a s).2.adjs = s.adjs ∧ (arrivalInService n a s).2.dpx = s.dpx
      ∧ (arrivalInService n a s).2.twr = s.twr ∧ (arrivalInService n a s).2.rwk = s.rwk
      ∧ (arrivalInService n a s).2.evu = s.evu ∧ (arrivalInService n a s).2.rck = s.rck
      ∧ (arrivalInService n a s).2.cme = s.cme ∧ (arrivalInService n a s).2.out = s.out := by
  generalize ht : (arrivalInService n a s).2 = t
  unfold arrivalInService at ht
  repeat' split at ht
  all_goals
    (try subst_vars)
    simp

@[simp] theorem acceptArrival_frame (n : Nat) (a : Arrival) (s : State) :
    (acceptArrival n a s).pending = s.pending ∧ (acceptArrival n a s).now = s.now
      ∧ (acceptArrival n a s).draws = s.draws ∧ (acceptArrival n a s).rsu = s.rsu
      ∧ (acceptArrival n a s).groups = s.groups ∧ (acceptArrival n a s).adjs = s.adjs
      ∧ (acceptArrival n a s).dpx = s.dpx ∧ (acceptArrival n a s).twr = s.twr ∧ (acceptArrival n a s).rck = s.rck
      ∧ (acceptArrival n a s).cme = s.cme ∧ (acceptArrival n a s).out = s.out := by
  generalize ht : (acceptArrival n a s) = t
  unfold acceptArrival at ht
  dsimp only at ht
  repeat' split at ht
  all_goals
    (try subst_vars)
    simp

@[simp] theorem probeArrival_frame (a : Arrival) (s : State) :
    (probeArrival a s).pending = s.pending ∧ (probeArrival a s).now = s.now ∧ (probeArrival a s).rsu = s.rsu
      ∧ (probeArrival a s).groups = s.groups ∧ (probeArrival a s).adjs = s.adjs ∧ (probeArrival a s).dpx = s.dpx
      ∧ (probeArrival a s).cme = s.cme ∧ (probeArrival a s).out = s.out := by
  generalize ht : (probeArrival a s) = t
  unfold probeArrival at ht
  dsimp only at ht
  repeat' split at ht
  all_goals
    (try subst_vars)
    simp

@[simp] theorem qualifyExpiry_frame (n : Nat) (s : State) :
    (qualifyExpiry n s).pending = s.pending ∧ (qualifyExpiry n s).rsu = s.rsu
      ∧ (qualifyExpiry n s).groups = s.groups ∧ (qualifyExpiry n s).adjs = s.adjs ∧ (qualifyExpiry n s).dpx = s.dpx
      ∧ (qualifyExpiry n s).cme = s.cme ∧ (qualifyExpiry n s).out = s.out := by
  generalize ht : (qualifyExpiry n s) = t
  unfold qualifyExpiry at ht
  dsimp only at ht
  repeat' split at ht
  all_goals
    (try subst_vars)
    simp

@[simp] theorem latchAtExit_frame (n : Nat) (cleared : Bool) (s : State) :
    (latchAtExit n cleared s).pending = s.pending ∧ (latchAtExit n cleared s).now = s.now
      ∧ (latchAtExit n cleared s).draws = s.draws ∧ (latchAtExit n cleared s).fsl = s.fsl
      ∧ (latchAtExit n cleared s).rsu = s.rsu ∧ (latchAtExit n cleared s).groups = s.groups
      ∧ (latchAtExit n cleared s).adjs = s.adjs ∧ (latchAtExit n cleared s).dpx = s.dpx
      ∧ (latchAtExit n cleared s).twr = s.twr ∧ (latchAtExit n cleared s).rwk = s.rwk
      ∧ (latchAtExit n cleared s).evu = s.evu ∧ (latchAtExit n cleared s).rck = s.rck
      ∧ (latchAtExit n cleared s).cme = s.cme ∧ (latchAtExit n cleared s).nfu = s.nfu
      ∧ (latchAtExit n cleared s).out = s.out := by
  generalize ht : (latchAtExit n cleared s) = t
  unfold latchAtExit at ht
  repeat' split at ht
  all_goals
    (try subst_vars)
    simp

@[simp] theorem leaveDown_frame (n : Nat) (s : State) :
    (leaveDown n s).pending = s.pending ∧ (leaveDown n s).now = s.now ∧ (leaveDown n s).rsu = s.rsu
      ∧ (leaveDown n s).groups = s.groups ∧ (leaveDown n s).adjs = s.adjs ∧ (leaveDown n s).dpx = s.dpx
      ∧ (leaveDown n s).cme = s.cme ∧ (leaveDown n s).out = s.out := by
  generalize ht : (leaveDown n s) = t
  unfold leaveDown at ht
  dsimp only at ht
  repeat' split at ht
  all_goals
    (try subst_vars)
    simp

@[simp] theorem holdExpiry_frame (n : Nat) (s : State) :
    (holdExpiry n s).pending = s.pending ∧ (holdExpiry n s).rsu = s.rsu ∧ (holdExpiry n s).groups = s.groups
      ∧ (holdExpiry n s).adjs = s.adjs ∧ (holdExpiry n s).dpx = s.dpx ∧ (holdExpiry n s).cme = s.cme
      ∧ (holdExpiry n s).out = s.out := by
  generalize ht : (holdExpiry n s) = t
  unfold holdExpiry at ht
  dsimp only at ht
  repeat' split at ht
  all_goals
    (try subst_vars)
    simp

@[simp] theorem arrivalExpiry_frame (n : Nat) (s : State) :
    (arrivalExpiry n s).pending = s.pending ∧ (arrivalExpiry n s).rsu = s.rsu
      ∧ (arrivalExpiry n s).groups = s.groups ∧ (arrivalExpiry n s).adjs = s.adjs ∧ (arrivalExpiry n s).dpx = s.dpx
      ∧ (arrivalExpiry n s).cme = s.cme ∧ (arrivalExpiry n s).out = s.out := by
  generalize ht : (arrivalExpiry n s) = t
  unfold arrivalExpiry at ht
  dsimp only at ht
  repeat' split at ht
  all_goals
    (try subst_vars)
    simp

@[simp] theorem sendExpiry_frame (n : Nat) (s : State) :
    (sendExpiry n s).pending = s.pending ∧ (sendExpiry n s).rsu = s.rsu ∧ (sendExpiry n s).groups = s.groups
      ∧ (sendExpiry n s).adjs = s.adjs ∧ (sendExpiry n s).dpx = s.dpx ∧ (sendExpiry n s).cme = s.cme
      ∧ (sendExpiry n s).out = s.out := by
  generalize ht : (sendExpiry n s) = t
  unfold sendExpiry at ht
  dsimp only at ht
  repeat' split at ht
  all_goals
    (try subst_vars)
    simp

@[simp] theorem decayExpiry_frame (n : Nat) (s : State) :
    (decayExpiry n s).pending = s.pending ∧ (decayExpiry n s).rsu = s.rsu ∧ (decayExpiry n s).groups = s.groups
      ∧ (decayExpiry n s).adjs = s.adjs ∧ (decayExpiry n s).dpx = s.dpx ∧ (decayExpiry n s).cme = s.cme
      ∧ (decayExpiry n s).out = s.out := by
  generalize ht : (decayExpiry n s) = t
  unfold decayExpiry at ht
  dsimp only at ht
  repeat' split at ht
  all_goals
    (try subst_vars)
    simp

@[simp] theorem activateReads_frame (s : State) :
    (activateReads s).pending = s.pending ∧ (activateReads s).now = s.now ∧ (activateReads s).rsu = s.rsu
      ∧ (activateReads s).groups = s.groups ∧ (activateReads s).adjs = s.adjs ∧ (activateReads s).dpx = s.dpx
      ∧ (activateReads s).cme = s.cme ∧ (activateReads s).out = s.out := by
  simp [activateReads]

@[simp] theorem activateProbes_frame (s : State) :
    (activateProbes s).pending = s.pending ∧ (activateProbes s).now = s.now ∧ (activateProbes s).rsu = s.rsu
      ∧ (activateProbes s).groups = s.groups ∧ (activateProbes s).adjs = s.adjs ∧ (activateProbes s).dpx = s.dpx
      ∧ (activateProbes s).cme = s.cme ∧ (activateProbes s).out = s.out := by
  simp [activateProbes]


/-! ### TableCommands -/

@[simp] theorem refuse_frame (st : Status) (s : State) :
    (refuse st s).state.pending = s.pending ∧ (refuse st s).state.now = s.now ∧ (refuse st s).state.draws = s.draws
      ∧ (refuse st s).state.fsl = s.fsl ∧ (refuse st s).state.rsu = s.rsu ∧ (refuse st s).state.groups = s.groups
      ∧ (refuse st s).state.adjs = s.adjs ∧ (refuse st s).state.dpx = s.dpx ∧ (refuse st s).state.twr = s.twr
      ∧ (refuse st s).state.rwk = s.rwk ∧ (refuse st s).state.uma = s.uma ∧ (refuse st s).state.evu = s.evu
      ∧ (refuse st s).state.rck = s.rck ∧ (refuse st s).state.cme = s.cme ∧ (refuse st s).state.nfu = s.nfu
      ∧ (refuse st s).state.out = s.out := by
  simp [refuse]

@[simp] theorem writeAdj_frame (a : Nat) (v : Adj) (s : State) :
    (writeAdj a v s).pending = s.pending ∧ (writeAdj a v s).now = s.now ∧ (writeAdj a v s).draws = s.draws
      ∧ (writeAdj a v s).fsl = s.fsl ∧ (writeAdj a v s).rsu = s.rsu ∧ (writeAdj a v s).groups = s.groups
      ∧ (writeAdj a v s).dpx = s.dpx ∧ (writeAdj a v s).twr = s.twr ∧ (writeAdj a v s).rwk = s.rwk
      ∧ (writeAdj a v s).uma = s.uma ∧ (writeAdj a v s).evu = s.evu ∧ (writeAdj a v s).cme = s.cme
      ∧ (writeAdj a v s).nfu = s.nfu ∧ (writeAdj a v s).out = s.out := by
  simp [writeAdj]

@[simp] theorem firstReferencing_frame (a : Nat) (x0 : Nat) (x1 : Nat) (x2 : State) :
    (firstReferencing a x0 x1 x2).2.pending = x2.pending ∧ (firstReferencing a x0 x1 x2).2.now = x2.now
      ∧ (firstReferencing a x0 x1 x2).2.draws = x2.draws ∧ (firstReferencing a x0 x1 x2).2.fsl = x2.fsl
      ∧ (firstReferencing a x0 x1 x2).2.rsu = x2.rsu ∧ (firstReferencing a x0 x1 x2).2.dpx = x2.dpx
      ∧ (firstReferencing a x0 x1 x2).2.twr = x2.twr ∧ (firstReferencing a x0 x1 x2).2.rwk = x2.rwk
      ∧ (firstReferencing a x0 x1 x2).2.uma = x2.uma ∧ (firstReferencing a x0 x1 x2).2.evu = x2.evu
      ∧ (firstReferencing a x0 x1 x2).2.cme = x2.cme ∧ (firstReferencing a x0 x1 x2).2.out = x2.out := by
  induction x0 generalizing x1 x2 with
  | zero => simp [firstReferencing]
  | succ k ih =>
    simp only [firstReferencing]
    rcases hy : readField (.groupStatus x1) x2 with ⟨ok, s1⟩
    replace hy := congrArg Prod.snd hy
    dsimp only at hy
    subst hy
    cases ok
    · simp
    · dsimp only
      split
      · rcases hz : readFields false (memberLinks x1 (readField (.groupStatus x1) x2).2)
          (readField (.groupStatus x1) x2).2 with ⟨ok, s2⟩
        replace hz := congrArg Prod.snd hz
        dsimp only at hz
        subst hz
        cases ok
        · simp
        · dsimp only
          split <;> simp [ih]
      · simp [ih]

@[simp] theorem readEntriesOf_frame (g : Nat) (x0 : List Nat) (x1 : State) :
    (readEntriesOf g x0 x1).2.pending = x1.pending ∧ (readEntriesOf g x0 x1).2.now = x1.now
      ∧ (readEntriesOf g x0 x1).2.draws = x1.draws ∧ (readEntriesOf g x0 x1).2.fsl = x1.fsl
      ∧ (readEntriesOf g x0 x1).2.rsu = x1.rsu ∧ (readEntriesOf g x0 x1).2.groups = x1.groups
      ∧ (readEntriesOf g x0 x1).2.adjs = x1.adjs ∧ (readEntriesOf g x0 x1).2.dpx = x1.dpx
      ∧ (readEntriesOf g x0 x1).2.twr = x1.twr ∧ (readEntriesOf g x0 x1).2.uma = x1.uma
      ∧ (readEntriesOf g x0 x1).2.evu = x1.evu ∧ (readEntriesOf g x0 x1).2.cme = x1.cme
      ∧ (readEntriesOf g x0 x1).2.out = x1.out := by
  induction x0 generalizing x1 with
  | nil => simp [readEntriesOf]
  | cons a l ih =>
    generalize ht : (readEntriesOf g (a :: l) x1).2 = t
    unfold readEntriesOf at ht
    repeat' split at ht
    all_goals
      (try simp only [Prod.ext_iff] at *)
      (try casesm* _ ∧ _)
      (try subst_vars)
      simp [ih]

@[simp] theorem repairAdj_frame (a : Nat) (v : Adj) (s : State) :
    (repairAdj a v s).pending = s.pending ∧ (repairAdj a v s).now = s.now ∧ (repairAdj a v s).draws = s.draws
      ∧ (repairAdj a v s).fsl = s.fsl ∧ (repairAdj a v s).rsu = s.rsu ∧ (repairAdj a v s).groups = s.groups
      ∧ (repairAdj a v s).dpx = s.dpx ∧ (repairAdj a v s).twr = s.twr ∧ (repairAdj a v s).uma = s.uma
      ∧ (repairAdj a v s).evu = s.evu ∧ (repairAdj a v s).cme = s.cme ∧ (repairAdj a v s).out = s.out := by
  simp [repairAdj]

@[simp] theorem writeDamagedAdj_frame (a : Nat) (v : Adj) (s : State) :
    (writeDamagedAdj a v s).state.pending = s.pending ∧ (writeDamagedAdj a v s).state.now = s.now
      ∧ (writeDamagedAdj a v s).state.draws = s.draws ∧ (writeDamagedAdj a v s).state.fsl = s.fsl
      ∧ (writeDamagedAdj a v s).state.rsu = s.rsu ∧ (writeDamagedAdj a v s).state.dpx = s.dpx
      ∧ (writeDamagedAdj a v s).state.twr = s.twr ∧ (writeDamagedAdj a v s).state.uma = s.uma
      ∧ (writeDamagedAdj a v s).state.evu = s.evu ∧ (writeDamagedAdj a v s).state.cme = s.cme
      ∧ (writeDamagedAdj a v s).state.out = s.out := by
  generalize ht : (writeDamagedAdj a v s).state = t
  unfold writeDamagedAdj at ht
  split at ht
  · subst ht; simp [refuse]
  split at ht <;> rename_i heq <;> replace heq := congrArg Prod.snd heq <;> dsimp only at heq
  · subst ht heq; simp [refuse]
  · split at ht <;> subst ht heq <;> simp [refuse]
  split at ht <;> rename_i heq2 <;> replace heq2 := congrArg Prod.snd heq2 <;> dsimp only at heq2
  · subst ht heq2 heq; simp [refuse]
  dsimp only at ht
  split at ht <;> rename_i heq3 <;> replace heq3 := congrArg Prod.snd heq3 <;> dsimp only at heq3
  · subst ht heq3 heq2 heq; simp [refuse]
  split at ht <;> subst ht heq3 heq2 heq <;> simp [refuse]

@[simp] theorem performAdjWrite_frame (adj : Half) (port : Byte) (rewrite : Half) (uplink : Byte) (s : State) :
    (performAdjWrite adj port rewrite uplink s).state.pending = s.pending
      ∧ (performAdjWrite adj port rewrite uplink s).state.now = s.now
      ∧ (performAdjWrite adj port rewrite uplink s).state.draws = s.draws
      ∧ (performAdjWrite adj port rewrite uplink s).state.fsl = s.fsl
      ∧ (performAdjWrite adj port rewrite uplink s).state.rsu = s.rsu
      ∧ (performAdjWrite adj port rewrite uplink s).state.dpx = s.dpx
      ∧ (performAdjWrite adj port rewrite uplink s).state.twr = s.twr
      ∧ (performAdjWrite adj port rewrite uplink s).state.uma = s.uma
      ∧ (performAdjWrite adj port rewrite uplink s).state.evu = s.evu
      ∧ (performAdjWrite adj port rewrite uplink s).state.cme = s.cme
      ∧ (performAdjWrite adj port rewrite uplink s).state.out = s.out := by
  generalize ht : (performAdjWrite adj port rewrite uplink s).state = t
  unfold performAdjWrite at ht
  dsimp only at ht
  repeat' split at ht
  all_goals
    (try simp only [Prod.ext_iff] at *)
    (try casesm* _ ∧ _)
    (try subst_vars)
    simp

@[simp] theorem performAdjDelete_frame (adj : Half) (s : State) :
    (performAdjDelete adj s).state.pending = s.pending ∧ (performAdjDelete adj s).state.now = s.now
      ∧ (performAdjDelete adj s).state.draws = s.draws ∧ (performAdjDelete adj s).state.fsl = s.fsl
      ∧ (performAdjDelete adj s).state.rsu = s.rsu ∧ (performAdjDelete adj s).state.dpx = s.dpx
      ∧ (performAdjDelete adj s).state.twr = s.twr ∧ (performAdjDelete adj s).state.rwk = s.rwk
      ∧ (performAdjDelete adj s).state.uma = s.uma ∧ (performAdjDelete adj s).state.evu = s.evu
      ∧ (performAdjDelete adj s).state.cme = s.cme ∧ (performAdjDelete adj s).state.out = s.out := by
  generalize ht : (performAdjDelete adj s).state = t
  unfold performAdjDelete at ht
  dsimp only at ht
  repeat' split at ht
  all_goals
    (try simp only [Prod.ext_iff] at *)
    (try casesm* _ ∧ _)
    (try subst_vars)
    simp

@[simp] theorem modRefs_frame (a : Nat) (f : Nat → Nat) (s : State) :
    (modRefs a f s).pending = s.pending ∧ (modRefs a f s).now = s.now ∧ (modRefs a f s).draws = s.draws
      ∧ (modRefs a f s).fsl = s.fsl ∧ (modRefs a f s).rsu = s.rsu ∧ (modRefs a f s).groups = s.groups
      ∧ (modRefs a f s).dpx = s.dpx ∧ (modRefs a f s).twr = s.twr ∧ (modRefs a f s).rwk = s.rwk
      ∧ (modRefs a f s).uma = s.uma ∧ (modRefs a f s).evu = s.evu ∧ (modRefs a f s).cme = s.cme
      ∧ (modRefs a f s).nfu = s.nfu ∧ (modRefs a f s).out = s.out := by
  simp [modRefs]

@[simp] theorem modReferrers_frame (b : Option Nat) (f : Nat → Nat) (s : State) :
    (modReferrers b f s).pending = s.pending ∧ (modReferrers b f s).now = s.now
      ∧ (modReferrers b f s).draws = s.draws ∧ (modReferrers b f s).fsl = s.fsl ∧ (modReferrers b f s).rsu = s.rsu
      ∧ (modReferrers b f s).adjs = s.adjs ∧ (modReferrers b f s).dpx = s.dpx ∧ (modReferrers b f s).twr = s.twr
      ∧ (modReferrers b f s).rwk = s.rwk ∧ (modReferrers b f s).uma = s.uma ∧ (modReferrers b f s).evu = s.evu
      ∧ (modReferrers b f s).cme = s.cme ∧ (modReferrers b f s).nfu = s.nfu ∧ (modReferrers b f s).out = s.out := by
  generalize ht : (modReferrers b f s) = t
  unfold modReferrers at ht
  repeat' split at ht
  all_goals
    (try subst_vars)
    simp

@[simp] theorem addRef_frame (a : Nat) (x0 : State) :
    (addRef a x0).pending = x0.pending ∧ (addRef a x0).now = x0.now ∧ (addRef a x0).draws = x0.draws
      ∧ (addRef a x0).fsl = x0.fsl ∧ (addRef a x0).rsu = x0.rsu ∧ (addRef a x0).groups = x0.groups
      ∧ (addRef a x0).dpx = x0.dpx ∧ (addRef a x0).twr = x0.twr ∧ (addRef a x0).rwk = x0.rwk
      ∧ (addRef a x0).uma = x0.uma ∧ (addRef a x0).evu = x0.evu ∧ (addRef a x0).cme = x0.cme
      ∧ (addRef a x0).nfu = x0.nfu ∧ (addRef a x0).out = x0.out := by
  simp [addRef]

@[simp] theorem dropRef_frame (a : Nat) (x0 : State) :
    (dropRef a x0).pending = x0.pending ∧ (dropRef a x0).now = x0.now ∧ (dropRef a x0).draws = x0.draws
      ∧ (dropRef a x0).fsl = x0.fsl ∧ (dropRef a x0).rsu = x0.rsu ∧ (dropRef a x0).groups = x0.groups
      ∧ (dropRef a x0).dpx = x0.dpx ∧ (dropRef a x0).twr = x0.twr ∧ (dropRef a x0).rwk = x0.rwk
      ∧ (dropRef a x0).uma = x0.uma ∧ (dropRef a x0).evu = x0.evu ∧ (dropRef a x0).cme = x0.cme
      ∧ (dropRef a x0).nfu = x0.nfu ∧ (dropRef a x0).out = x0.out := by
  simp [dropRef]

@[simp] theorem addReferrer_frame (b : Option Nat) (x0 : State) :
    (addReferrer b x0).pending = x0.pending ∧ (addReferrer b x0).now = x0.now ∧ (addReferrer b x0).draws = x0.draws
      ∧ (addReferrer b x0).fsl = x0.fsl ∧ (addReferrer b x0).rsu = x0.rsu ∧ (addReferrer b x0).adjs = x0.adjs
      ∧ (addReferrer b x0).dpx = x0.dpx ∧ (addReferrer b x0).twr = x0.twr ∧ (addReferrer b x0).rwk = x0.rwk
      ∧ (addReferrer b x0).uma = x0.uma ∧ (addReferrer b x0).evu = x0.evu ∧ (addReferrer b x0).cme = x0.cme
      ∧ (addReferrer b x0).nfu = x0.nfu ∧ (addReferrer b x0).out = x0.out := by
  simp [addReferrer]

@[simp] theorem dropReferrer_frame (b : Option Nat) (x0 : State) :
    (dropReferrer b x0).pending = x0.pending ∧ (dropReferrer b x0).now = x0.now
      ∧ (dropReferrer b x0).draws = x0.draws ∧ (dropReferrer b x0).fsl = x0.fsl ∧ (dropReferrer b x0).rsu = x0.rsu
      ∧ (dropReferrer b x0).adjs = x0.adjs ∧ (dropReferrer b x0).dpx = x0.dpx ∧ (dropReferrer b x0).twr = x0.twr
      ∧ (dropReferrer b x0).rwk = x0.rwk ∧ (dropReferrer b x0).uma = x0.uma ∧ (dropReferrer b x0).evu = x0.evu
      ∧ (dropReferrer b x0).cme = x0.cme ∧ (dropReferrer b x0).nfu = x0.nfu ∧ (dropReferrer b x0).out = x0.out := by
  simp [dropReferrer]

@[simp] theorem dropReferences_frame (g : Group) (s : State) :
    (dropReferences g s).pending = s.pending ∧ (dropReferences g s).now = s.now
      ∧ (dropReferences g s).draws = s.draws ∧ (dropReferences g s).fsl = s.fsl ∧ (dropReferences g s).rsu = s.rsu
      ∧ (dropReferences g s).dpx = s.dpx ∧ (dropReferences g s).twr = s.twr ∧ (dropReferences g s).rwk = s.rwk
      ∧ (dropReferences g s).uma = s.uma ∧ (dropReferences g s).evu = s.evu ∧ (dropReferences g s).cme = s.cme
      ∧ (dropReferences g s).nfu = s.nfu ∧ (dropReferences g s).out = s.out := by
  simp [dropReferences]

@[simp] theorem addReferences_frame (adjs : List Nat) (backup : Option Nat) (s : State) :
    (addReferences adjs backup s).pending = s.pending ∧ (addReferences adjs backup s).now = s.now
      ∧ (addReferences adjs backup s).draws = s.draws ∧ (addReferences adjs backup s).fsl = s.fsl
      ∧ (addReferences adjs backup s).rsu = s.rsu ∧ (addReferences adjs backup s).dpx = s.dpx
      ∧ (addReferences adjs backup s).twr = s.twr ∧ (addReferences adjs backup s).rwk = s.rwk
      ∧ (addReferences adjs backup s).uma = s.uma ∧ (addReferences adjs backup s).evu = s.evu
      ∧ (addReferences adjs backup s).cme = s.cme ∧ (addReferences adjs backup s).nfu = s.nfu
      ∧ (addReferences adjs backup s).out = s.out := by
  simp [addReferences]

@[simp] theorem removeEntry_frame (g : Nat) (u : Nat) (s : State) :
    (removeEntry g u s).pending = s.pending ∧ (removeEntry g u s).now = s.now ∧ (removeEntry g u s).draws = s.draws
      ∧ (removeEntry g u s).fsl = s.fsl ∧ (removeEntry g u s).rsu = s.rsu ∧ (removeEntry g u s).groups = s.groups
      ∧ (removeEntry g u s).adjs = s.adjs ∧ (removeEntry g u s).twr = s.twr ∧ (removeEntry g u s).rwk = s.rwk
      ∧ (removeEntry g u s).uma = s.uma ∧ (removeEntry g u s).evu = s.evu ∧ (removeEntry g u s).cme = s.cme
      ∧ (removeEntry g u s).nfu = s.nfu ∧ (removeEntry g u s).out = s.out := by
  simp [removeEntry]

@[simp] theorem insertEntry_frame (g : Nat) (u : Nat) (s : State) :
    (insertEntry g u s).pending = s.pending ∧ (insertEntry g u s).now = s.now ∧ (insertEntry g u s).draws = s.draws
      ∧ (insertEntry g u s).fsl = s.fsl ∧ (insertEntry g u s).rsu = s.rsu ∧ (insertEntry g u s).groups = s.groups
      ∧ (insertEntry g u s).adjs = s.adjs ∧ (insertEntry g u s).twr = s.twr ∧ (insertEntry g u s).rwk = s.rwk
      ∧ (insertEntry g u s).uma = s.uma ∧ (insertEntry g u s).evu = s.evu ∧ (insertEntry g u s).cme = s.cme
      ∧ (insertEntry g u s).nfu = s.nfu ∧ (insertEntry g u s).out = s.out := by
  simp [insertEntry]

@[simp] theorem readLists_frame (x0 : List Nat) (x1 : State) :
    (readLists x0 x1).2.pending = x1.pending ∧ (readLists x0 x1).2.now = x1.now
      ∧ (readLists x0 x1).2.draws = x1.draws ∧ (readLists x0 x1).2.fsl = x1.fsl ∧ (readLists x0 x1).2.rsu = x1.rsu
      ∧ (readLists x0 x1).2.groups = x1.groups ∧ (readLists x0 x1).2.adjs = x1.adjs
      ∧ (readLists x0 x1).2.dpx = x1.dpx ∧ (readLists x0 x1).2.twr = x1.twr ∧ (readLists x0 x1).2.uma = x1.uma
      ∧ (readLists x0 x1).2.evu = x1.evu ∧ (readLists x0 x1).2.cme = x1.cme ∧ (readLists x0 x1).2.out = x1.out := by
  induction x0 generalizing x1 with
  | nil => simp [readLists]
  | cons a l ih =>
    generalize ht : (readLists (a :: l) x1).2 = t
    unfold readLists at ht
    repeat' split at ht
    all_goals
      (try simp only [Prod.ext_iff] at *)
      (try casesm* _ ∧ _)
      (try subst_vars)
      simp [ih]

@[simp] theorem changeLists_frame (g : Nat) (set : List Nat) (s : State) :
    (changeLists g set s).pending = s.pending ∧ (changeLists g set s).now = s.now
      ∧ (changeLists g set s).draws = s.draws ∧ (changeLists g set s).fsl = s.fsl
      ∧ (changeLists g set s).rsu = s.rsu ∧ (changeLists g set s).groups = s.groups
      ∧ (changeLists g set s).adjs = s.adjs ∧ (changeLists g set s).twr = s.twr ∧ (changeLists g set s).uma = s.uma
      ∧ (changeLists g set s).evu = s.evu ∧ (changeLists g set s).cme = s.cme ∧ (changeLists g set s).out = s.out := by
  generalize ht : (changeLists g set s) = t
  unfold changeLists at ht
  dsimp only at ht
  repeat' split at ht
  all_goals
    (try simp only [Prod.ext_iff] at *)
    (try casesm* _ ∧ _)
    (try subst_vars)
    simp

@[simp] theorem checkMembers_frame (x0 : List MemberArg) (x1 : State) :
    (checkMembers x0 x1).2.pending = x1.pending ∧ (checkMembers x0 x1).2.now = x1.now
      ∧ (checkMembers x0 x1).2.draws = x1.draws ∧ (checkMembers x0 x1).2.fsl = x1.fsl
      ∧ (checkMembers x0 x1).2.rsu = x1.rsu ∧ (checkMembers x0 x1).2.dpx = x1.dpx
      ∧ (checkMembers x0 x1).2.twr = x1.twr ∧ (checkMembers x0 x1).2.rwk = x1.rwk
      ∧ (checkMembers x0 x1).2.uma = x1.uma ∧ (checkMembers x0 x1).2.evu = x1.evu
      ∧ (checkMembers x0 x1).2.cme = x1.cme ∧ (checkMembers x0 x1).2.out = x1.out := by
  induction x0 generalizing x1 with
  | nil => simp [checkMembers]
  | cons a l ih =>
    generalize ht : (checkMembers (a :: l) x1).2 = t
    unfold checkMembers at ht
    dsimp only at ht
    repeat' split at ht
    all_goals
      (try simp only [Prod.ext_iff] at *)
      (try casesm* _ ∧ _)
      (try subst_vars)
      simp [ih]

@[simp] theorem checkBackup_frame (g : Nat) (backup : Half) (s : State) :
    (checkBackup g backup s).2.pending = s.pending ∧ (checkBackup g backup s).2.now = s.now
      ∧ (checkBackup g backup s).2.draws = s.draws ∧ (checkBackup g backup s).2.fsl = s.fsl
      ∧ (checkBackup g backup s).2.rsu = s.rsu ∧ (checkBackup g backup s).2.dpx = s.dpx
      ∧ (checkBackup g backup s).2.twr = s.twr ∧ (checkBackup g backup s).2.rwk = s.rwk
      ∧ (checkBackup g backup s).2.uma = s.uma ∧ (checkBackup g backup s).2.evu = s.evu
      ∧ (checkBackup g backup s).2.cme = s.cme ∧ (checkBackup g backup s).2.out = s.out := by
  generalize ht : (checkBackup g backup s).2 = t
  unfold checkBackup at ht
  dsimp only at ht
  repeat' split at ht
  all_goals
    (try simp only [Prod.ext_iff] at *)
    (try casesm* _ ∧ _)
    (try subst_vars)
    simp

@[simp] theorem installGroup_frame (a : GroupArgs) (B : BucketCount) (st : Stripe) (po : Policy) (s : State) :
    (installGroup a B st po s).state.pending = s.pending ∧ (installGroup a B st po s).state.now = s.now
      ∧ (installGroup a B st po s).state.draws = s.draws ∧ (installGroup a B st po s).state.fsl = s.fsl
      ∧ (installGroup a B st po s).state.rsu = s.rsu ∧ (installGroup a B st po s).state.uma = s.uma
      ∧ (installGroup a B st po s).state.evu = s.evu ∧ (installGroup a B st po s).state.cme = s.cme
      ∧ (installGroup a B st po s).state.out = s.out := by
  generalize ht : (installGroup a B st po s).state = t
  unfold installGroup at ht
  dsimp only at ht
  repeat' split at ht
  all_goals
    (try subst_vars)
    simp

@[simp] theorem performGroupWrite_frame (a : GroupArgs) (s : State) :
    (performGroupWrite a s).state.pending = s.pending ∧ (performGroupWrite a s).state.now = s.now
      ∧ (performGroupWrite a s).state.draws = s.draws ∧ (performGroupWrite a s).state.fsl = s.fsl
      ∧ (performGroupWrite a s).state.rsu = s.rsu ∧ (performGroupWrite a s).state.uma = s.uma
      ∧ (performGroupWrite a s).state.evu = s.evu ∧ (performGroupWrite a s).state.cme = s.cme
      ∧ (performGroupWrite a s).state.out = s.out := by
  generalize ht : (performGroupWrite a s).state = t
  unfold performGroupWrite at ht
  dsimp only at ht
  repeat' split at ht
  all_goals
    (try simp only [Prod.ext_iff] at *)
    (try casesm* _ ∧ _)
    (try subst_vars)
    simp

@[simp] theorem deleteGroup_frame (g : Nat) (s : State) :
    (deleteGroup g s).state.pending = s.pending ∧ (deleteGroup g s).state.now = s.now
      ∧ (deleteGroup g s).state.draws = s.draws ∧ (deleteGroup g s).state.fsl = s.fsl
      ∧ (deleteGroup g s).state.rsu = s.rsu ∧ (deleteGroup g s).state.uma = s.uma
      ∧ (deleteGroup g s).state.evu = s.evu ∧ (deleteGroup g s).state.cme = s.cme
      ∧ (deleteGroup g s).state.out = s.out := by
  simp [deleteGroup]

@[simp] theorem performGroupDelete_frame (group : Half) (s : State) :
    (performGroupDelete group s).state.pending = s.pending ∧ (performGroupDelete group s).state.now = s.now
      ∧ (performGroupDelete group s).state.draws = s.draws ∧ (performGroupDelete group s).state.fsl = s.fsl
      ∧ (performGroupDelete group s).state.rsu = s.rsu ∧ (performGroupDelete group s).state.uma = s.uma
      ∧ (performGroupDelete group s).state.evu = s.evu ∧ (performGroupDelete group s).state.cme = s.cme
      ∧ (performGroupDelete group s).state.out = s.out := by
  generalize ht : (performGroupDelete group s).state = t
  unfold performGroupDelete at ht
  dsimp only at ht
  repeat' split at ht
  all_goals
    (try simp only [Prod.ext_iff] at *)
    (try casesm* _ ∧ _)
    (try subst_vars)
    simp

@[simp] theorem storeEnabled_frame (g : Nat) (i : Nat) (v : Bool) (x0 : State) :
    (storeEnabled g i v x0).pending = x0.pending ∧ (storeEnabled g i v x0).now = x0.now
      ∧ (storeEnabled g i v x0).draws = x0.draws ∧ (storeEnabled g i v x0).fsl = x0.fsl
      ∧ (storeEnabled g i v x0).rsu = x0.rsu ∧ (storeEnabled g i v x0).adjs = x0.adjs
      ∧ (storeEnabled g i v x0).dpx = x0.dpx ∧ (storeEnabled g i v x0).twr = x0.twr
      ∧ (storeEnabled g i v x0).rwk = x0.rwk ∧ (storeEnabled g i v x0).uma = x0.uma
      ∧ (storeEnabled g i v x0).evu = x0.evu ∧ (storeEnabled g i v x0).rck = x0.rck
      ∧ (storeEnabled g i v x0).cme = x0.cme ∧ (storeEnabled g i v x0).nfu = x0.nfu
      ∧ (storeEnabled g i v x0).out = x0.out := by
  simp [storeEnabled]

@[simp] theorem performMemberSet_frame (group : Half) (index : Byte) (enabled : Byte) (s : State) :
    (performMemberSet group index enabled s).state.pending = s.pending
      ∧ (performMemberSet group index enabled s).state.now = s.now
      ∧ (performMemberSet group index enabled s).state.draws = s.draws
      ∧ (performMemberSet group index enabled s).state.fsl = s.fsl
      ∧ (performMemberSet group index enabled s).state.rsu = s.rsu
      ∧ (performMemberSet group index enabled s).state.dpx = s.dpx
      ∧ (performMemberSet group index enabled s).state.rwk = s.rwk
      ∧ (performMemberSet group index enabled s).state.uma = s.uma
      ∧ (performMemberSet group index enabled s).state.evu = s.evu
      ∧ (performMemberSet group index enabled s).state.cme = s.cme
      ∧ (performMemberSet group index enabled s).state.out = s.out := by
  generalize ht : (performMemberSet group index enabled s).state = t
  unfold performMemberSet at ht
  extract_lets g i at ht
  clear_value g i
  split at ht
  · subst ht; simp [refuse]
  split at ht
  · subst ht; simp [refuse]
  split at ht <;> rename_i heq <;> replace heq := congrArg Prod.snd heq <;> dsimp only at heq
  · subst ht heq; simp [refuse]
  rename_i s1
  split at ht
  · subst ht heq; simp [refuse]
  split at ht
  · subst ht heq; simp [refuse]
  extract_lets s2 at ht
  have h2 : readMembers false g (readHeader false g s1) = s2 := rfl
  clear_value s2
  split at ht
  · subst ht h2 heq; simp [refuse]
  split at ht
  · subst ht h2 heq; simp [refuse]
  split at ht
  · dsimp only at ht; subst ht h2 heq; simp
  split at ht <;> rename_i heq3 <;> replace heq3 := congrArg Prod.snd heq3 <;> dsimp only at heq3
  · subst ht heq3 h2 heq; simp [refuse]
  split at ht
  rename_i heq4
  replace heq4 := congrArg Prod.snd heq4
  dsimp only at heq4 ht
  subst ht heq4 heq3 h2 heq
  simp


/-! ### ReadCommands -/

@[simp] theorem performIdentify_frame (s : State) :
    (performIdentify s).state.pending = s.pending ∧ (performIdentify s).state.now = s.now
      ∧ (performIdentify s).state.draws = s.draws ∧ (performIdentify s).state.fsl = s.fsl
      ∧ (performIdentify s).state.rsu = s.rsu ∧ (performIdentify s).state.groups = s.groups
      ∧ (performIdentify s).state.adjs = s.adjs ∧ (performIdentify s).state.dpx = s.dpx
      ∧ (performIdentify s).state.twr = s.twr ∧ (performIdentify s).state.rwk = s.rwk
      ∧ (performIdentify s).state.uma = s.uma ∧ (performIdentify s).state.evu = s.evu
      ∧ (performIdentify s).state.rck = s.rck ∧ (performIdentify s).state.cme = s.cme
      ∧ (performIdentify s).state.nfu = s.nfu ∧ (performIdentify s).state.out = s.out := by
  simp [performIdentify]

@[simp] theorem performAdjRead_frame (adj : Half) (s : State) :
    (performAdjRead adj s).state.pending = s.pending ∧ (performAdjRead adj s).state.now = s.now
      ∧ (performAdjRead adj s).state.draws = s.draws ∧ (performAdjRead adj s).state.fsl = s.fsl
      ∧ (performAdjRead adj s).state.rsu = s.rsu ∧ (performAdjRead adj s).state.dpx = s.dpx
      ∧ (performAdjRead adj s).state.twr = s.twr ∧ (performAdjRead adj s).state.rwk = s.rwk
      ∧ (performAdjRead adj s).state.uma = s.uma ∧ (performAdjRead adj s).state.evu = s.evu
      ∧ (performAdjRead adj s).state.cme = s.cme ∧ (performAdjRead adj s).state.out = s.out := by
  generalize ht : (performAdjRead adj s).state = t
  unfold performAdjRead at ht
  dsimp only at ht
  repeat' split at ht
  all_goals
    (try subst_vars)
    simp

@[simp] theorem readDamagedGroup_frame (g : Nat) (s : State) :
    (readDamagedGroup g s).state.pending = s.pending ∧ (readDamagedGroup g s).state.now = s.now
      ∧ (readDamagedGroup g s).state.draws = s.draws ∧ (readDamagedGroup g s).state.fsl = s.fsl
      ∧ (readDamagedGroup g s).state.rsu = s.rsu ∧ (readDamagedGroup g s).state.dpx = s.dpx
      ∧ (readDamagedGroup g s).state.twr = s.twr ∧ (readDamagedGroup g s).state.rwk = s.rwk
      ∧ (readDamagedGroup g s).state.uma = s.uma ∧ (readDamagedGroup g s).state.evu = s.evu
      ∧ (readDamagedGroup g s).state.cme = s.cme ∧ (readDamagedGroup g s).state.out = s.out := by
  generalize ht : (readDamagedGroup g s).state = t
  unfold readDamagedGroup at ht
  split at ht
  rename_i heq
  replace heq := congrArg Prod.snd heq
  split at ht
  rename_i heq2
  replace heq2 := congrArg Prod.snd heq2
  dsimp only at heq heq2 ht
  subst ht heq2 heq
  simp

@[simp] theorem readInstalledGroup_frame (g : Nat) (s : State) :
    (readInstalledGroup g s).state.pending = s.pending ∧ (readInstalledGroup g s).state.now = s.now
      ∧ (readInstalledGroup g s).state.draws = s.draws ∧ (readInstalledGroup g s).state.fsl = s.fsl
      ∧ (readInstalledGroup g s).state.rsu = s.rsu ∧ (readInstalledGroup g s).state.dpx = s.dpx
      ∧ (readInstalledGroup g s).state.twr = s.twr ∧ (readInstalledGroup g s).state.rwk = s.rwk
      ∧ (readInstalledGroup g s).state.uma = s.uma ∧ (readInstalledGroup g s).state.evu = s.evu
      ∧ (readInstalledGroup g s).state.cme = s.cme ∧ (readInstalledGroup g s).state.out = s.out := by
  generalize ht : (readInstalledGroup g s).state = t
  unfold readInstalledGroup at ht
  extract_lets s1 at ht
  have h1 : readMembers false g (readHeader false g s) = s1 := rfl
  clear_value s1
  split at ht
  · rcases hr : readBuckets g (List.range (s1.group g).buckets.length) s1 with ⟨bad, s2⟩
    rw [hr] at ht
    replace hr := congrArg Prod.snd hr
    dsimp only at hr
    change s2 = t at ht
    subst ht hr h1
    simp
  · subst ht h1; simp

@[simp] theorem performGroupRead_frame (group : Half) (s : State) :
    (performGroupRead group s).state.pending = s.pending ∧ (performGroupRead group s).state.now = s.now
      ∧ (performGroupRead group s).state.draws = s.draws ∧ (performGroupRead group s).state.fsl = s.fsl
      ∧ (performGroupRead group s).state.rsu = s.rsu ∧ (performGroupRead group s).state.dpx = s.dpx
      ∧ (performGroupRead group s).state.twr = s.twr ∧ (performGroupRead group s).state.rwk = s.rwk
      ∧ (performGroupRead group s).state.uma = s.uma ∧ (performGroupRead group s).state.evu = s.evu
      ∧ (performGroupRead group s).state.cme = s.cme ∧ (performGroupRead group s).state.out = s.out := by
  generalize ht : (performGroupRead group s).state = t
  unfold performGroupRead at ht
  dsimp only at ht
  repeat' split at ht
  all_goals
    (try subst_vars)
    simp

@[simp] theorem performDepletedList_frame (start : Half) (s : State) :
    (performDepletedList start s).state.pending = s.pending ∧ (performDepletedList start s).state.now = s.now
      ∧ (performDepletedList start s).state.draws = s.draws ∧ (performDepletedList start s).state.fsl = s.fsl
      ∧ (performDepletedList start s).state.rsu = s.rsu ∧ (performDepletedList start s).state.groups = s.groups
      ∧ (performDepletedList start s).state.adjs = s.adjs ∧ (performDepletedList start s).state.dpx = s.dpx
      ∧ (performDepletedList start s).state.twr = s.twr ∧ (performDepletedList start s).state.rwk = s.rwk
      ∧ (performDepletedList start s).state.uma = s.uma ∧ (performDepletedList start s).state.evu = s.evu
      ∧ (performDepletedList start s).state.rck = s.rck ∧ (performDepletedList start s).state.cme = s.cme
      ∧ (performDepletedList start s).state.nfu = s.nfu ∧ (performDepletedList start s).state.out = s.out := by
  generalize ht : (performDepletedList start s).state = t
  unfold performDepletedList at ht
  repeat' split at ht
  all_goals
    (try subst_vars)
    simp

@[simp] theorem clearCounters_frame (s : State) :
    (clearCounters s).pending = s.pending ∧ (clearCounters s).now = s.now ∧ (clearCounters s).draws = s.draws
      ∧ (clearCounters s).groups = s.groups ∧ (clearCounters s).adjs = s.adjs ∧ (clearCounters s).dpx = s.dpx
      ∧ (clearCounters s).twr = s.twr ∧ (clearCounters s).rwk = s.rwk ∧ (clearCounters s).nfu = s.nfu
      ∧ (clearCounters s).out = s.out := by
  simp [clearCounters]

@[simp] theorem performCountersRead_frame (clear : Byte) (s : State) :
    (performCountersRead clear s).state.pending = s.pending ∧ (performCountersRead clear s).state.now = s.now
      ∧ (performCountersRead clear s).state.draws = s.draws ∧ (performCountersRead clear s).state.groups = s.groups
      ∧ (performCountersRead clear s).state.adjs = s.adjs ∧ (performCountersRead clear s).state.dpx = s.dpx
      ∧ (performCountersRead clear s).state.twr = s.twr ∧ (performCountersRead clear s).state.rwk = s.rwk
      ∧ (performCountersRead clear s).state.nfu = s.nfu ∧ (performCountersRead clear s).state.out = s.out := by
  generalize ht : (performCountersRead clear s).state = t
  unfold performCountersRead at ht
  repeat' split at ht
  all_goals
    (try subst_vars)
    simp

@[simp] theorem performResolveTest_frame (group : Half) (hash : Half) (s : State) :
    (performResolveTest group hash s).state.pending = s.pending
      ∧ (performResolveTest group hash s).state.now = s.now
      ∧ (performResolveTest group hash s).state.draws = s.draws
      ∧ (performResolveTest group hash s).state.fsl = s.fsl ∧ (performResolveTest group hash s).state.dpx = s.dpx
      ∧ (performResolveTest group hash s).state.twr = s.twr ∧ (performResolveTest group hash s).state.rwk = s.rwk
      ∧ (performResolveTest group hash s).state.uma = s.uma ∧ (performResolveTest group hash s).state.evu = s.evu
      ∧ (performResolveTest group hash s).state.cme = s.cme ∧ (performResolveTest group hash s).state.out = s.out := by
  generalize ht : (performResolveTest group hash s).state = t
  unfold performResolveTest at ht
  repeat' split at ht
  all_goals
    (try simp only [Prod.ext_iff] at *)
    (try casesm* _ ∧ _)
    (try subst_vars)
    simp

@[simp] theorem performJobStatus_frame (s : State) :
    (performJobStatus s).state.pending = s.pending ∧ (performJobStatus s).state.now = s.now
      ∧ (performJobStatus s).state.draws = s.draws ∧ (performJobStatus s).state.fsl = s.fsl
      ∧ (performJobStatus s).state.rsu = s.rsu ∧ (performJobStatus s).state.groups = s.groups
      ∧ (performJobStatus s).state.adjs = s.adjs ∧ (performJobStatus s).state.dpx = s.dpx
      ∧ (performJobStatus s).state.twr = s.twr ∧ (performJobStatus s).state.rwk = s.rwk
      ∧ (performJobStatus s).state.uma = s.uma ∧ (performJobStatus s).state.evu = s.evu
      ∧ (performJobStatus s).state.rck = s.rck ∧ (performJobStatus s).state.cme = s.cme
      ∧ (performJobStatus s).state.nfu = s.nfu ∧ (performJobStatus s).state.out = s.out := by
  simp [performJobStatus]

@[simp] theorem performAuditSet_frame (interval : Half) (s : State) :
    (performAuditSet interval s).state.pending = s.pending ∧ (performAuditSet interval s).state.now = s.now
      ∧ (performAuditSet interval s).state.draws = s.draws ∧ (performAuditSet interval s).state.fsl = s.fsl
      ∧ (performAuditSet interval s).state.rsu = s.rsu ∧ (performAuditSet interval s).state.groups = s.groups
      ∧ (performAuditSet interval s).state.adjs = s.adjs ∧ (performAuditSet interval s).state.dpx = s.dpx
      ∧ (performAuditSet interval s).state.twr = s.twr ∧ (performAuditSet interval s).state.uma = s.uma
      ∧ (performAuditSet interval s).state.evu = s.evu ∧ (performAuditSet interval s).state.rck = s.rck
      ∧ (performAuditSet interval s).state.cme = s.cme ∧ (performAuditSet interval s).state.nfu = s.nfu
      ∧ (performAuditSet interval s).state.out = s.out := by
  simp [performAuditSet]

@[simp] theorem performEvidenceWrite_frame (target : Byte) (index : Byte) (assertFilter : Half) (clearFilter : Half) (guardTime : Half) (s : State) :
    (performEvidenceWrite target index assertFilter clearFilter guardTime s).state.pending = s.pending
      ∧ (performEvidenceWrite target index assertFilter clearFilter guardTime s).state.now = s.now
      ∧ (performEvidenceWrite target index assertFilter clearFilter guardTime s).state.draws = s.draws
      ∧ (performEvidenceWrite target index assertFilter clearFilter guardTime s).state.fsl = s.fsl
      ∧ (performEvidenceWrite target index assertFilter clearFilter guardTime s).state.rsu = s.rsu
      ∧ (performEvidenceWrite target index assertFilter clearFilter guardTime s).state.groups = s.groups
      ∧ (performEvidenceWrite target index assertFilter clearFilter guardTime s).state.adjs = s.adjs
      ∧ (performEvidenceWrite target index assertFilter clearFilter guardTime s).state.dpx = s.dpx
      ∧ (performEvidenceWrite target index assertFilter clearFilter guardTime s).state.twr = s.twr
      ∧ (performEvidenceWrite target index assertFilter clearFilter guardTime s).state.rwk = s.rwk
      ∧ (performEvidenceWrite target index assertFilter clearFilter guardTime s).state.uma = s.uma
      ∧ (performEvidenceWrite target index assertFilter clearFilter guardTime s).state.rck = s.rck
      ∧ (performEvidenceWrite target index assertFilter clearFilter guardTime s).state.cme = s.cme
      ∧ (performEvidenceWrite target index assertFilter clearFilter guardTime s).state.nfu = s.nfu
      ∧ (performEvidenceWrite target index assertFilter clearFilter guardTime s).state.out = s.out := by
  generalize ht : (performEvidenceWrite target index assertFilter clearFilter guardTime s).state = t
  unfold performEvidenceWrite at ht
  repeat' split at ht
  all_goals
    (try subst_vars)
    simp

@[simp] theorem performEvidenceRead_frame (target : Byte) (index : Byte) (clear : Byte) (s : State) :
    (performEvidenceRead target index clear s).state.pending = s.pending
      ∧ (performEvidenceRead target index clear s).state.now = s.now
      ∧ (performEvidenceRead target index clear s).state.draws = s.draws
      ∧ (performEvidenceRead target index clear s).state.fsl = s.fsl
      ∧ (performEvidenceRead target index clear s).state.rsu = s.rsu
      ∧ (performEvidenceRead target index clear s).state.groups = s.groups
      ∧ (performEvidenceRead target index clear s).state.adjs = s.adjs
      ∧ (performEvidenceRead target index clear s).state.dpx = s.dpx
      ∧ (performEvidenceRead target index clear s).state.twr = s.twr
      ∧ (performEvidenceRead target index clear s).state.rwk = s.rwk
      ∧ (performEvidenceRead target index clear s).state.uma = s.uma
      ∧ (performEvidenceRead target index clear s).state.rck = s.rck
      ∧ (performEvidenceRead target index clear s).state.cme = s.cme
      ∧ (performEvidenceRead target index clear s).state.nfu = s.nfu
      ∧ (performEvidenceRead target index clear s).state.out = s.out := by
  generalize ht : (performEvidenceRead target index clear s).state = t
  unfold performEvidenceRead at ht
  repeat' split at ht
  all_goals
    (try subst_vars)
    simp

@[simp] theorem configureSource_frame (masked : Bool) (cls : Nat) (discard : Bool) (r : Nat) (s : State) :
    (configureSource masked cls discard r s).pending = s.pending
      ∧ (configureSource masked cls discard r s).now = s.now
      ∧ (configureSource masked cls discard r s).draws = s.draws
      ∧ (configureSource masked cls discard r s).fsl = s.fsl ∧ (configureSource masked cls discard r s).rsu = s.rsu
      ∧ (configureSource masked cls discard r s).groups = s.groups
      ∧ (configureSource masked cls discard r s).adjs = s.adjs
      ∧ (configureSource masked cls discard r s).dpx = s.dpx ∧ (configureSource masked cls discard r s).twr = s.twr
      ∧ (configureSource masked cls discard r s).rwk = s.rwk ∧ (configureSource masked cls discard r s).uma = s.uma
      ∧ (configureSource masked cls discard r s).evu = s.evu ∧ (configureSource masked cls discard r s).rck = s.rck
      ∧ (configureSource masked cls discard r s).cme = s.cme ∧ (configureSource masked cls discard r s).out = s.out := by
  simp [configureSource]

@[simp] theorem performEventConfig_frame (first : Byte) (last : Byte) (mask : Byte) (cls : Byte) (discard : Byte) (s : State) :
    (performEventConfig first last mask cls discard s).state.pending = s.pending
      ∧ (performEventConfig first last mask cls discard s).state.now = s.now
      ∧ (performEventConfig first last mask cls discard s).state.draws = s.draws
      ∧ (performEventConfig first last mask cls discard s).state.fsl = s.fsl
      ∧ (performEventConfig first last mask cls discard s).state.rsu = s.rsu
      ∧ (performEventConfig first last mask cls discard s).state.groups = s.groups
      ∧ (performEventConfig first last mask cls discard s).state.adjs = s.adjs
      ∧ (performEventConfig first last mask cls discard s).state.dpx = s.dpx
      ∧ (performEventConfig first last mask cls discard s).state.twr = s.twr
      ∧ (performEventConfig first last mask cls discard s).state.rwk = s.rwk
      ∧ (performEventConfig first last mask cls discard s).state.uma = s.uma
      ∧ (performEventConfig first last mask cls discard s).state.evu = s.evu
      ∧ (performEventConfig first last mask cls discard s).state.rck = s.rck
      ∧ (performEventConfig first last mask cls discard s).state.cme = s.cme
      ∧ (performEventConfig first last mask cls discard s).state.out = s.out := by
  generalize ht : (performEventConfig first last mask cls discard s).state = t
  unfold performEventConfig at ht
  repeat' split at ht
  all_goals
    (try subst_vars)
    simp

@[simp] theorem clearPending_frame (r : Nat) (s : State) :
    (clearPending r s).pending = s.pending ∧ (clearPending r s).now = s.now ∧ (clearPending r s).draws = s.draws
      ∧ (clearPending r s).fsl = s.fsl ∧ (clearPending r s).rsu = s.rsu ∧ (clearPending r s).groups = s.groups
      ∧ (clearPending r s).adjs = s.adjs ∧ (clearPending r s).dpx = s.dpx ∧ (clearPending r s).twr = s.twr
      ∧ (clearPending r s).rwk = s.rwk ∧ (clearPending r s).uma = s.uma ∧ (clearPending r s).evu = s.evu
      ∧ (clearPending r s).rck = s.rck ∧ (clearPending r s).cme = s.cme ∧ (clearPending r s).out = s.out := by
  simp [clearPending]

@[simp] theorem performEventFetch_frame (cls : Byte) (s : State) :
    (performEventFetch cls s).state.pending = s.pending ∧ (performEventFetch cls s).state.now = s.now
      ∧ (performEventFetch cls s).state.draws = s.draws ∧ (performEventFetch cls s).state.fsl = s.fsl
      ∧ (performEventFetch cls s).state.rsu = s.rsu ∧ (performEventFetch cls s).state.groups = s.groups
      ∧ (performEventFetch cls s).state.adjs = s.adjs ∧ (performEventFetch cls s).state.dpx = s.dpx
      ∧ (performEventFetch cls s).state.twr = s.twr ∧ (performEventFetch cls s).state.rwk = s.rwk
      ∧ (performEventFetch cls s).state.uma = s.uma ∧ (performEventFetch cls s).state.evu = s.evu
      ∧ (performEventFetch cls s).state.rck = s.rck ∧ (performEventFetch cls s).state.cme = s.cme
      ∧ (performEventFetch cls s).state.out = s.out := by
  generalize ht : (performEventFetch cls s).state = t
  unfold performEventFetch at ht
  repeat' split at ht
  all_goals
    (try subst_vars)
    simp


/-! ### MonitorCommands -/

@[simp] theorem monitorAnswer_frame (n : Nat) (s : State) :
    (monitorAnswer n s).state.pending = s.pending ∧ (monitorAnswer n s).state.now = s.now
      ∧ (monitorAnswer n s).state.draws = s.draws ∧ (monitorAnswer n s).state.fsl = s.fsl
      ∧ (monitorAnswer n s).state.rsu = s.rsu ∧ (monitorAnswer n s).state.groups = s.groups
      ∧ (monitorAnswer n s).state.adjs = s.adjs ∧ (monitorAnswer n s).state.dpx = s.dpx
      ∧ (monitorAnswer n s).state.twr = s.twr ∧ (monitorAnswer n s).state.rwk = s.rwk
      ∧ (monitorAnswer n s).state.uma = s.uma ∧ (monitorAnswer n s).state.evu = s.evu
      ∧ (monitorAnswer n s).state.rck = s.rck ∧ (monitorAnswer n s).state.cme = s.cme
      ∧ (monitorAnswer n s).state.nfu = s.nfu ∧ (monitorAnswer n s).state.out = s.out := by
  simp [monitorAnswer]

@[simp] theorem readOthers_frame (n : Nat) (s : State) :
    (readOthers n s).pending = s.pending ∧ (readOthers n s).now = s.now ∧ (readOthers n s).rsu = s.rsu
      ∧ (readOthers n s).groups = s.groups ∧ (readOthers n s).adjs = s.adjs ∧ (readOthers n s).dpx = s.dpx
      ∧ (readOthers n s).cme = s.cme ∧ (readOthers n s).out = s.out := by
  simp [readOthers]

@[simp] theorem checkSession_frame (n : Nat) (a : MonitorArgs) (s : State) :
    (checkSession n a s).2.pending = s.pending ∧ (checkSession n a s).2.now = s.now
      ∧ (checkSession n a s).2.rsu = s.rsu ∧ (checkSession n a s).2.groups = s.groups
      ∧ (checkSession n a s).2.adjs = s.adjs ∧ (checkSession n a s).2.dpx = s.dpx
      ∧ (checkSession n a s).2.cme = s.cme ∧ (checkSession n a s).2.out = s.out := by
  generalize ht : (checkSession n a s).2 = t
  unfold checkSession at ht
  repeat' split at ht
  all_goals
    (try subst_vars)
    simp

@[simp] theorem signalWritten_frame (old : Monitor) (new : Monitor) (s : State) :
    (signalWritten old new s).pending = s.pending ∧ (signalWritten old new s).now = s.now
      ∧ (signalWritten old new s).draws = s.draws ∧ (signalWritten old new s).rsu = s.rsu
      ∧ (signalWritten old new s).groups = s.groups ∧ (signalWritten old new s).adjs = s.adjs
      ∧ (signalWritten old new s).dpx = s.dpx ∧ (signalWritten old new s).twr = s.twr
      ∧ (signalWritten old new s).rwk = s.rwk ∧ (signalWritten old new s).uma = s.uma
      ∧ (signalWritten old new s).rck = s.rck ∧ (signalWritten old new s).cme = s.cme
      ∧ (signalWritten old new s).nfu = s.nfu ∧ (signalWritten old new s).out = s.out := by
  generalize ht : (signalWritten old new s) = t
  unfold signalWritten at ht
  repeat' split at ht
  all_goals
    (try subst_vars)
    simp

@[simp] theorem releaseHeld_frame (n : Nat) (s : State) :
    (releaseHeld n s).pending = s.pending ∧ (releaseHeld n s).now = s.now ∧ (releaseHeld n s).draws = s.draws
      ∧ (releaseHeld n s).fsl = s.fsl ∧ (releaseHeld n s).rsu = s.rsu ∧ (releaseHeld n s).groups = s.groups
      ∧ (releaseHeld n s).adjs = s.adjs ∧ (releaseHeld n s).dpx = s.dpx ∧ (releaseHeld n s).twr = s.twr
      ∧ (releaseHeld n s).rwk = s.rwk ∧ (releaseHeld n s).evu = s.evu ∧ (releaseHeld n s).rck = s.rck
      ∧ (releaseHeld n s).cme = s.cme ∧ (releaseHeld n s).nfu = s.nfu ∧ (releaseHeld n s).out = s.out := by
  generalize ht : (releaseHeld n s) = t
  unfold releaseHeld at ht
  dsimp only at ht
  repeat' split at ht
  all_goals
    (try subst_vars)
    simp

@[simp] theorem rebound_frame (n : Nat) (old : Monitor) (endsLos : Bool) (s : State) :
    (rebound n old endsLos s).pending = s.pending ∧ (rebound n old endsLos s).now = s.now
      ∧ (rebound n old endsLos s).draws = s.draws ∧ (rebound n old endsLos s).rsu = s.rsu
      ∧ (rebound n old endsLos s).groups = s.groups ∧ (rebound n old endsLos s).adjs = s.adjs
      ∧ (rebound n old endsLos s).dpx = s.dpx ∧ (rebound n old endsLos s).twr = s.twr
      ∧ (rebound n old endsLos s).rck = s.rck ∧ (rebound n old endsLos s).cme = s.cme
      ∧ (rebound n old endsLos s).out = s.out := by
  generalize ht : (rebound n old endsLos s) = t
  unfold rebound at ht
  dsimp only at ht
  repeat' split at ht
  all_goals
    (try subst_vars)
    simp

@[simp] theorem latchModeWritten_frame (n : Nat) (old : Monitor) (s : State) :
    (latchModeWritten n old s).pending = s.pending ∧ (latchModeWritten n old s).now = s.now
      ∧ (latchModeWritten n old s).draws = s.draws ∧ (latchModeWritten n old s).fsl = s.fsl
      ∧ (latchModeWritten n old s).rsu = s.rsu ∧ (latchModeWritten n old s).groups = s.groups
      ∧ (latchModeWritten n old s).adjs = s.adjs ∧ (latchModeWritten n old s).dpx = s.dpx
      ∧ (latchModeWritten n old s).twr = s.twr ∧ (latchModeWritten n old s).rwk = s.rwk
      ∧ (latchModeWritten n old s).evu = s.evu ∧ (latchModeWritten n old s).rck = s.rck
      ∧ (latchModeWritten n old s).cme = s.cme ∧ (latchModeWritten n old s).out = s.out := by
  generalize ht : (latchModeWritten n old s) = t
  unfold latchModeWritten at ht
  dsimp only at ht
  repeat' split at ht
  all_goals
    (try subst_vars)
    simp

@[simp] theorem writeMonitor_frame (n : Nat) (c : MonCfg) (b : Binding) (s : State) :
    (writeMonitor n c b s).pending = s.pending ∧ (writeMonitor n c b s).now = s.now
      ∧ (writeMonitor n c b s).rsu = s.rsu ∧ (writeMonitor n c b s).groups = s.groups
      ∧ (writeMonitor n c b s).adjs = s.adjs ∧ (writeMonitor n c b s).dpx = s.dpx
      ∧ (writeMonitor n c b s).cme = s.cme ∧ (writeMonitor n c b s).out = s.out := by
  generalize ht : (writeMonitor n c b s) = t
  unfold writeMonitor at ht
  dsimp only at ht
  repeat' split at ht
  all_goals
    (try subst_vars)
    simp

@[simp] theorem performMonitorWrite_frame (a : MonitorArgs) (s : State) :
    (performMonitorWrite a s).state.pending = s.pending ∧ (performMonitorWrite a s).state.now = s.now
      ∧ (performMonitorWrite a s).state.rsu = s.rsu ∧ (performMonitorWrite a s).state.groups = s.groups
      ∧ (performMonitorWrite a s).state.adjs = s.adjs ∧ (performMonitorWrite a s).state.dpx = s.dpx
      ∧ (performMonitorWrite a s).state.cme = s.cme ∧ (performMonitorWrite a s).state.out = s.out := by
  generalize ht : (performMonitorWrite a s).state = t
  unfold performMonitorWrite at ht
  dsimp only at ht
  repeat' split at ht
  all_goals
    (try simp only [Prod.ext_iff] at *)
    (try casesm* _ ∧ _)
    (try subst_vars)
    simp

@[simp] theorem performMonitorRead_frame (monitor : Byte) (clear : Byte) (s : State) :
    (performMonitorRead monitor clear s).state.pending = s.pending
      ∧ (performMonitorRead monitor clear s).state.now = s.now
      ∧ (performMonitorRead monitor clear s).state.rsu = s.rsu
      ∧ (performMonitorRead monitor clear s).state.groups = s.groups
      ∧ (performMonitorRead monitor clear s).state.adjs = s.adjs
      ∧ (performMonitorRead monitor clear s).state.dpx = s.dpx
      ∧ (performMonitorRead monitor clear s).state.cme = s.cme
      ∧ (performMonitorRead monitor clear s).state.out = s.out := by
  generalize ht : (performMonitorRead monitor clear s).state = t
  unfold performMonitorRead at ht
  dsimp only at ht
  repeat' split at ht
  all_goals
    (try subst_vars)
    simp

@[simp] theorem performEnable_frame (monitor : Byte) (s : State) :
    (performEnable monitor s).state.pending = s.pending ∧ (performEnable monitor s).state.now = s.now
      ∧ (performEnable monitor s).state.rsu = s.rsu ∧ (performEnable monitor s).state.groups = s.groups
      ∧ (performEnable monitor s).state.adjs = s.adjs ∧ (performEnable monitor s).state.dpx = s.dpx
      ∧ (performEnable monitor s).state.cme = s.cme ∧ (performEnable monitor s).state.out = s.out := by
  generalize ht : (performEnable monitor s).state = t
  unfold performEnable at ht
  dsimp only at ht
  repeat' split at ht
  all_goals
    (try subst_vars)
    simp

@[simp] theorem performDisable_frame (monitor : Byte) (s : State) :
    (performDisable monitor s).state.pending = s.pending ∧ (performDisable monitor s).state.now = s.now
      ∧ (performDisable monitor s).state.rsu = s.rsu ∧ (performDisable monitor s).state.groups = s.groups
      ∧ (performDisable monitor s).state.adjs = s.adjs ∧ (performDisable monitor s).state.dpx = s.dpx
      ∧ (performDisable monitor s).state.cme = s.cme ∧ (performDisable monitor s).state.out = s.out := by
  generalize ht : (performDisable monitor s).state = t
  unfold performDisable at ht
  dsimp only at ht
  repeat' split at ht
  all_goals
    (try subst_vars)
    simp

@[simp] theorem setHost_frame (n : Nat) (v : Bool) (s : State) :
    (setHost n v s).pending = s.pending ∧ (setHost n v s).now = s.now ∧ (setHost n v s).draws = s.draws
      ∧ (setHost n v s).rsu = s.rsu ∧ (setHost n v s).groups = s.groups ∧ (setHost n v s).adjs = s.adjs
      ∧ (setHost n v s).dpx = s.dpx ∧ (setHost n v s).twr = s.twr ∧ (setHost n v s).rck = s.rck
      ∧ (setHost n v s).cme = s.cme ∧ (setHost n v s).out = s.out := by
  simp [setHost]

@[simp] theorem performForceDown_frame (monitor : Byte) (s : State) :
    (performForceDown monitor s).state.pending = s.pending ∧ (performForceDown monitor s).state.now = s.now
      ∧ (performForceDown monitor s).state.rsu = s.rsu ∧ (performForceDown monitor s).state.groups = s.groups
      ∧ (performForceDown monitor s).state.adjs = s.adjs ∧ (performForceDown monitor s).state.dpx = s.dpx
      ∧ (performForceDown monitor s).state.cme = s.cme ∧ (performForceDown monitor s).state.out = s.out := by
  generalize ht : (performForceDown monitor s).state = t
  unfold performForceDown at ht
  dsimp only at ht
  repeat' split at ht
  all_goals
    (try subst_vars)
    simp

@[simp] theorem performRelease_frame (monitor : Byte) (s : State) :
    (performRelease monitor s).state.pending = s.pending ∧ (performRelease monitor s).state.now = s.now
      ∧ (performRelease monitor s).state.rsu = s.rsu ∧ (performRelease monitor s).state.groups = s.groups
      ∧ (performRelease monitor s).state.adjs = s.adjs ∧ (performRelease monitor s).state.dpx = s.dpx
      ∧ (performRelease monitor s).state.cme = s.cme ∧ (performRelease monitor s).state.out = s.out := by
  generalize ht : (performRelease monitor s).state = t
  unfold performRelease at ht
  dsimp only at ht
  repeat' split at ht
  all_goals
    (try subst_vars)
    simp

@[simp] theorem clearLatch_frame (n : Nat) (s : State) :
    (clearLatch n s).pending = s.pending ∧ (clearLatch n s).now = s.now ∧ (clearLatch n s).draws = s.draws
      ∧ (clearLatch n s).rsu = s.rsu ∧ (clearLatch n s).groups = s.groups ∧ (clearLatch n s).adjs = s.adjs
      ∧ (clearLatch n s).dpx = s.dpx ∧ (clearLatch n s).twr = s.twr ∧ (clearLatch n s).rck = s.rck
      ∧ (clearLatch n s).cme = s.cme ∧ (clearLatch n s).out = s.out := by
  generalize ht : (clearLatch n s) = t
  unfold clearLatch at ht
  dsimp only at ht
  repeat' split at ht
  all_goals
    (try subst_vars)
    simp

@[simp] theorem performClearLatch_frame (monitor : Byte) (s : State) :
    (performClearLatch monitor s).state.pending = s.pending ∧ (performClearLatch monitor s).state.now = s.now
      ∧ (performClearLatch monitor s).state.rsu = s.rsu ∧ (performClearLatch monitor s).state.groups = s.groups
      ∧ (performClearLatch monitor s).state.adjs = s.adjs ∧ (performClearLatch monitor s).state.dpx = s.dpx
      ∧ (performClearLatch monitor s).state.cme = s.cme ∧ (performClearLatch monitor s).state.out = s.out := by
  generalize ht : (performClearLatch monitor s).state = t
  unfold performClearLatch at ht
  dsimp only at ht
  repeat' split at ht
  all_goals
    (try subst_vars)
    simp


/-! ### Engine -/

@[simp] theorem perform_frame (c : HostCmd) (s : State) :
    (perform c s).state.pending = s.pending ∧ (perform c s).state.now = s.now ∧ (perform c s).state.out = s.out := by
  generalize ht : (perform c s).state = t
  unfold perform at ht
  repeat' split at ht
  all_goals
    (try subst_vars)
    simp

@[simp] theorem enqueueResponse_frame (r : Response) (s : State) :
    (enqueueResponse r s).pending = s.pending ∧ (enqueueResponse r s).now = s.now
      ∧ (enqueueResponse r s).draws = s.draws ∧ (enqueueResponse r s).fsl = s.fsl
      ∧ (enqueueResponse r s).rsu = s.rsu ∧ (enqueueResponse r s).groups = s.groups
      ∧ (enqueueResponse r s).adjs = s.adjs ∧ (enqueueResponse r s).dpx = s.dpx ∧ (enqueueResponse r s).twr = s.twr
      ∧ (enqueueResponse r s).rwk = s.rwk ∧ (enqueueResponse r s).uma = s.uma ∧ (enqueueResponse r s).evu = s.evu
      ∧ (enqueueResponse r s).rck = s.rck ∧ (enqueueResponse r s).out = s.out := by
  generalize ht : (enqueueResponse r s) = t
  unfold enqueueResponse at ht
  repeat' split at ht
  all_goals
    (try subst_vars)
    simp

@[simp] theorem placeResponse_frame (r : Response) (s : State) :
    (placeResponse r s).pending = s.pending ∧ (placeResponse r s).now = s.now ∧ (placeResponse r s).draws = s.draws
      ∧ (placeResponse r s).fsl = s.fsl ∧ (placeResponse r s).rsu = s.rsu ∧ (placeResponse r s).groups = s.groups
      ∧ (placeResponse r s).adjs = s.adjs ∧ (placeResponse r s).dpx = s.dpx ∧ (placeResponse r s).twr = s.twr
      ∧ (placeResponse r s).rwk = s.rwk ∧ (placeResponse r s).uma = s.uma ∧ (placeResponse r s).evu = s.evu
      ∧ (placeResponse r s).rck = s.rck ∧ (placeResponse r s).out = s.out := by
  simp [placeResponse]

@[simp] theorem performAtOnce_frame (tag : Half) (c : HostCmd) (s : State) :
    (performAtOnce tag c s).pending = s.pending ∧ (performAtOnce tag c s).now = s.now
      ∧ (performAtOnce tag c s).out = s.out := by
  simp [performAtOnce]

@[simp] theorem takeCommand_frame (tag : Half) (c : HostCmd) (s : State) :
    (takeCommand tag c s).pending = s.pending ∧ (takeCommand tag c s).now = s.now
      ∧ (takeCommand tag c s).out = s.out := by
  generalize ht : (takeCommand tag c s) = t
  unfold takeCommand at ht
  repeat' split at ht
  all_goals
    (try subst_vars)
    simp

@[simp] theorem takeRecord_frame (r : List Byte) (s : State) :
    (takeRecord r s).pending = s.pending ∧ (takeRecord r s).now = s.now ∧ (takeRecord r s).out = s.out := by
  generalize ht : (takeRecord r s) = t
  unfold takeRecord at ht
  repeat' split at ht
  all_goals
    (try subst_vars)
    simp

@[simp] theorem takeAll_frame (x0 : Nat) (x1 : State) :
    (takeAll x0 x1).pending = x1.pending ∧ (takeAll x0 x1).now = x1.now ∧ (takeAll x0 x1).out = x1.out := by
  induction x0 generalizing x1 with
  | zero => simp [takeAll]
  | succ k ih =>
    generalize ht : (takeAll (k + 1) x1) = t
    unfold takeAll at ht
    repeat' split at ht
    all_goals
      (try subst_vars)
      simp [ih]

@[simp] theorem runEngine_frame (s : State) :
    (runEngine s).pending = s.pending ∧ (runEngine s).now = s.now ∧ (runEngine s).out = s.out := by
  simp [runEngine]

@[simp] theorem commandOverflow_frame (s : State) :
    (commandOverflow s).pending = s.pending ∧ (commandOverflow s).now = s.now ∧ (commandOverflow s).draws = s.draws
      ∧ (commandOverflow s).fsl = s.fsl ∧ (commandOverflow s).rsu = s.rsu ∧ (commandOverflow s).groups = s.groups
      ∧ (commandOverflow s).adjs = s.adjs ∧ (commandOverflow s).dpx = s.dpx ∧ (commandOverflow s).uma = s.uma
      ∧ (commandOverflow s).evu = s.evu ∧ (commandOverflow s).rck = s.rck ∧ (commandOverflow s).out = s.out := by
  simp [commandOverflow]

@[simp] theorem deliverRecord_frame (bytes : List Byte) (s : State) :
    (deliverRecord bytes s).pending = s.pending ∧ (deliverRecord bytes s).now = s.now
      ∧ (deliverRecord bytes s).out = s.out := by
  generalize ht : (deliverRecord bytes s) = t
  unfold deliverRecord at ht
  repeat' split at ht
  all_goals
    (try subst_vars)
    simp

@[simp] theorem finishTable_frame (tag : Half) (c : HostCmd) (o : CmdOut) (s : State) :
    (finishTable tag c o s).pending = s.pending ∧ (finishTable tag c o s).now = s.now
      ∧ (finishTable tag c o s).draws = s.draws ∧ (finishTable tag c o s).fsl = s.fsl
      ∧ (finishTable tag c o s).rsu = s.rsu ∧ (finishTable tag c o s).groups = s.groups
      ∧ (finishTable tag c o s).adjs = s.adjs ∧ (finishTable tag c o s).dpx = s.dpx
      ∧ (finishTable tag c o s).twr = s.twr ∧ (finishTable tag c o s).rwk = s.rwk
      ∧ (finishTable tag c o s).uma = s.uma ∧ (finishTable tag c o s).evu = s.evu
      ∧ (finishTable tag c o s).rck = s.rck ∧ (finishTable tag c o s).out = s.out := by
  generalize ht : (finishTable tag c o s) = t
  unfold finishTable at ht
  repeat' split at ht
  all_goals
    (try subst_vars)
    simp

@[simp] theorem completeTable_frame (tag : Half) (c : HostCmd) (s : State) :
    (completeTable tag c s).pending = s.pending ∧ (completeTable tag c s).now = s.now
      ∧ (completeTable tag c s).out = s.out := by
  simp [completeTable]

@[simp] theorem readStep_frame (tag : Half) (c : HostCmd) (s : State) :
    (readStep tag c s).pending = s.pending ∧ (readStep tag c s).now = s.now ∧ (readStep tag c s).out = s.out := by
  generalize ht : (readStep tag c s) = t
  unfold readStep at ht
  repeat' split at ht
  all_goals
    (try subst_vars)
    simp

@[simp] theorem tableStep_frame (tag : Half) (c : HostCmd) (s : State) :
    (tableStep tag c s).pending = s.pending ∧ (tableStep tag c s).now = s.now ∧ (tableStep tag c s).out = s.out := by
  generalize ht : (tableStep tag c s) = t
  unfold tableStep at ht
  dsimp only at ht
  repeat' split at ht
  all_goals
    (try subst_vars)
    simp


/-! ### HostPort -/

@[simp] theorem sampleLines_frame (levels : BitVec 16) (s : State) :
    (sampleLines levels s).pending = s.pending ∧ (sampleLines levels s).now = s.now
      ∧ (sampleLines levels s).rsu = s.rsu ∧ (sampleLines levels s).groups = s.groups
      ∧ (sampleLines levels s).adjs = s.adjs ∧ (sampleLines levels s).dpx = s.dpx
      ∧ (sampleLines levels s).cme = s.cme ∧ (sampleLines levels s).out = s.out := by
  unfold sampleLines
  refine ⟨?_, ?_, ?_, ?_, ?_, ?_, ?_, ?_⟩
  · exact forEach_keeps (·.pending) _ _ (fun n s => by split <;> simp) s
  · exact forEach_keeps (·.now) _ _ (fun n s => by split <;> simp) s
  · exact forEach_keeps (·.rsu) _ _ (fun n s => by split <;> simp) s
  · exact forEach_keeps (·.groups) _ _ (fun n s => by split <;> simp) s
  · exact forEach_keeps (·.adjs) _ _ (fun n s => by split <;> simp) s
  · exact forEach_keeps (·.dpx) _ _ (fun n s => by split <;> simp) s
  · exact forEach_keeps (·.cme) _ _ (fun n s => by split <;> simp) s
  · exact forEach_keeps (·.out) _ _ (fun n s => by split <;> simp) s


/-! ### LinkRows -/

@[simp] theorem openLink_frame (s : State) :
    (openLink s).pending = s.pending ∧ (openLink s).now = s.now ∧ (openLink s).draws = s.draws
      ∧ (openLink s).rsu = s.rsu ∧ (openLink s).groups = s.groups ∧ (openLink s).adjs = s.adjs
      ∧ (openLink s).dpx = s.dpx ∧ (openLink s).twr = s.twr ∧ (openLink s).rwk = s.rwk ∧ (openLink s).uma = s.uma
      ∧ (openLink s).evu = s.evu ∧ (openLink s).rck = s.rck ∧ (openLink s).cme = s.cme ∧ (openLink s).nfu = s.nfu
      ∧ (openLink s).out = s.out := by
  simp [openLink]

@[simp] theorem enterActive_frame (s : State) :
    (enterActive s).pending = s.pending ∧ (enterActive s).now = s.now ∧ (enterActive s).rsu = s.rsu
      ∧ (enterActive s).groups = s.groups ∧ (enterActive s).adjs = s.adjs ∧ (enterActive s).dpx = s.dpx
      ∧ (enterActive s).cme = s.cme ∧ (enterActive s).out = s.out := by
  simp [enterActive]

@[simp] theorem admitRequest_frame (tag : Byte) (g : Nat) (hash : Nat) (s : State) :
    (admitRequest tag g hash s).pending = s.pending ∧ (admitRequest tag g hash s).now = s.now
      ∧ (admitRequest tag g hash s).draws = s.draws ∧ (admitRequest tag g hash s).dpx = s.dpx
      ∧ (admitRequest tag g hash s).twr = s.twr ∧ (admitRequest tag g hash s).rwk = s.rwk
      ∧ (admitRequest tag g hash s).uma = s.uma ∧ (admitRequest tag g hash s).evu = s.evu
      ∧ (admitRequest tag g hash s).cme = s.cme ∧ (admitRequest tag g hash s).out = s.out := by
  simp [admitRequest]

@[simp] theorem discardMessage_frame (m : Marker) (s : State) :
    (discardMessage m s).pending = s.pending ∧ (discardMessage m s).now = s.now
      ∧ (discardMessage m s).draws = s.draws ∧ (discardMessage m s).rsu = s.rsu
      ∧ (discardMessage m s).groups = s.groups ∧ (discardMessage m s).adjs = s.adjs
      ∧ (discardMessage m s).dpx = s.dpx ∧ (discardMessage m s).twr = s.twr ∧ (discardMessage m s).rwk = s.rwk
      ∧ (discardMessage m s).uma = s.uma ∧ (discardMessage m s).evu = s.evu ∧ (discardMessage m s).rck = s.rck
      ∧ (discardMessage m s).cme = s.cme ∧ (discardMessage m s).nfu = s.nfu ∧ (discardMessage m s).out = s.out := by
  generalize ht : (discardMessage m s) = t
  unfold discardMessage at ht
  repeat' split at ht
  all_goals
    (try subst_vars)
    simp

@[simp] theorem badMessage_frame (m : Marker) (s : State) :
    (badMessage m s).pending = s.pending ∧ (badMessage m s).now = s.now ∧ (badMessage m s).draws = s.draws
      ∧ (badMessage m s).groups = s.groups ∧ (badMessage m s).adjs = s.adjs ∧ (badMessage m s).dpx = s.dpx
      ∧ (badMessage m s).twr = s.twr ∧ (badMessage m s).rwk = s.rwk ∧ (badMessage m s).uma = s.uma
      ∧ (badMessage m s).evu = s.evu ∧ (badMessage m s).rck = s.rck ∧ (badMessage m s).cme = s.cme
      ∧ (badMessage m s).out = s.out := by
  generalize ht : (badMessage m s) = t
  unfold badMessage at ht
  dsimp only at ht
  repeat' split at ht
  all_goals
    (try subst_vars)
    simp


/-! ### TimerRows -/

@[simp] theorem auditTimerExpiry_frame (s : State) :
    (auditTimerExpiry s).pending = s.pending ∧ (auditTimerExpiry s).draws = s.draws
      ∧ (auditTimerExpiry s).fsl = s.fsl ∧ (auditTimerExpiry s).rsu = s.rsu ∧ (auditTimerExpiry s).groups = s.groups
      ∧ (auditTimerExpiry s).adjs = s.adjs ∧ (auditTimerExpiry s).dpx = s.dpx ∧ (auditTimerExpiry s).twr = s.twr
      ∧ (auditTimerExpiry s).uma = s.uma ∧ (auditTimerExpiry s).evu = s.evu ∧ (auditTimerExpiry s).rck = s.rck
      ∧ (auditTimerExpiry s).cme = s.cme ∧ (auditTimerExpiry s).nfu = s.nfu ∧ (auditTimerExpiry s).out = s.out := by
  generalize ht : (auditTimerExpiry s) = t
  unfold auditTimerExpiry at ht
  repeat' split at ht
  all_goals
    (try subst_vars)
    simp


/-! ### WalkerRows -/

@[simp] theorem findGroup_frame (u : Nat) (c : Option Nat) (s : State) :
    (findGroup u c s).2.pending = s.pending ∧ (findGroup u c s).2.now = s.now ∧ (findGroup u c s).2.draws = s.draws
      ∧ (findGroup u c s).2.fsl = s.fsl ∧ (findGroup u c s).2.rsu = s.rsu ∧ (findGroup u c s).2.groups = s.groups
      ∧ (findGroup u c s).2.adjs = s.adjs ∧ (findGroup u c s).2.dpx = s.dpx ∧ (findGroup u c s).2.twr = s.twr
      ∧ (findGroup u c s).2.uma = s.uma ∧ (findGroup u c s).2.evu = s.evu ∧ (findGroup u c s).2.cme = s.cme
      ∧ (findGroup u c s).2.out = s.out := by
  generalize ht : (findGroup u c s).2 = t
  unfold findGroup at ht
  dsimp only at ht
  repeat' split at ht
  all_goals
    (try simp only [Prod.ext_iff] at *)
    (try casesm* _ ∧ _)
    (try subst_vars)
    simp

@[simp] theorem completeJob_frame (u : Nat) (s : State) :
    (completeJob u s).pending = s.pending ∧ (completeJob u s).now = s.now ∧ (completeJob u s).draws = s.draws
      ∧ (completeJob u s).fsl = s.fsl ∧ (completeJob u s).rsu = s.rsu ∧ (completeJob u s).groups = s.groups
      ∧ (completeJob u s).adjs = s.adjs ∧ (completeJob u s).dpx = s.dpx ∧ (completeJob u s).twr = s.twr
      ∧ (completeJob u s).evu = s.evu ∧ (completeJob u s).rck = s.rck ∧ (completeJob u s).cme = s.cme
      ∧ (completeJob u s).out = s.out := by
  simp [completeJob]

@[simp] theorem jobResult_frame (u : Nat) (f : Finding) (s : State) :
    (jobResult u f s).pending = s.pending ∧ (jobResult u f s).now = s.now ∧ (jobResult u f s).draws = s.draws
      ∧ (jobResult u f s).fsl = s.fsl ∧ (jobResult u f s).rsu = s.rsu ∧ (jobResult u f s).groups = s.groups
      ∧ (jobResult u f s).adjs = s.adjs ∧ (jobResult u f s).dpx = s.dpx ∧ (jobResult u f s).twr = s.twr
      ∧ (jobResult u f s).evu = s.evu ∧ (jobResult u f s).rck = s.rck ∧ (jobResult u f s).cme = s.cme
      ∧ (jobResult u f s).out = s.out := by
  generalize ht : (jobResult u f s) = t
  unfold jobResult at ht
  repeat' split at ht
  all_goals
    (try subst_vars)
    simp

@[simp] theorem jobStep_frame (u : Nat) (s : State) :
    (jobStep u s).pending = s.pending ∧ (jobStep u s).now = s.now ∧ (jobStep u s).draws = s.draws
      ∧ (jobStep u s).fsl = s.fsl ∧ (jobStep u s).rsu = s.rsu ∧ (jobStep u s).dpx = s.dpx
      ∧ (jobStep u s).evu = s.evu ∧ (jobStep u s).cme = s.cme ∧ (jobStep u s).out = s.out := by
  generalize ht : (jobStep u s) = t
  unfold jobStep at ht
  repeat' split at ht
  all_goals
    (try simp only [Prod.ext_iff] at *)
    (try casesm* _ ∧ _)
    (try subst_vars)
    simp

@[simp] theorem readForRebuild_frame (g : Nat) (i : Nat) (s : State) :
    (readForRebuild g i s).pending = s.pending ∧ (readForRebuild g i s).now = s.now
      ∧ (readForRebuild g i s).draws = s.draws ∧ (readForRebuild g i s).fsl = s.fsl
      ∧ (readForRebuild g i s).rsu = s.rsu ∧ (readForRebuild g i s).dpx = s.dpx ∧ (readForRebuild g i s).twr = s.twr
      ∧ (readForRebuild g i s).rwk = s.rwk ∧ (readForRebuild g i s).uma = s.uma ∧ (readForRebuild g i s).evu = s.evu
      ∧ (readForRebuild g i s).cme = s.cme ∧ (readForRebuild g i s).out = s.out := by
  generalize ht : (readForRebuild g i s) = t
  unfold readForRebuild at ht
  dsimp only at ht
  repeat' split at ht
  all_goals
    (try subst_vars)
    simp

@[simp] theorem readGroupForRebuild_frame (g : Nat) (s : State) :
    (readGroupForRebuild g s).pending = s.pending ∧ (readGroupForRebuild g s).now = s.now
      ∧ (readGroupForRebuild g s).draws = s.draws ∧ (readGroupForRebuild g s).fsl = s.fsl
      ∧ (readGroupForRebuild g s).rsu = s.rsu ∧ (readGroupForRebuild g s).dpx = s.dpx
      ∧ (readGroupForRebuild g s).twr = s.twr ∧ (readGroupForRebuild g s).rwk = s.rwk
      ∧ (readGroupForRebuild g s).uma = s.uma ∧ (readGroupForRebuild g s).evu = s.evu
      ∧ (readGroupForRebuild g s).cme = s.cme ∧ (readGroupForRebuild g s).out = s.out := by
  generalize ht : (readGroupForRebuild g s) = t
  unfold readGroupForRebuild at ht
  repeat' split at ht
  all_goals
    (try subst_vars)
    simp

@[simp] theorem rebuildIndex_frame (s : State) :
    (rebuildIndex s).pending = s.pending ∧ (rebuildIndex s).now = s.now ∧ (rebuildIndex s).draws = s.draws
      ∧ (rebuildIndex s).fsl = s.fsl ∧ (rebuildIndex s).rsu = s.rsu ∧ (rebuildIndex s).groups = s.groups
      ∧ (rebuildIndex s).adjs = s.adjs ∧ (rebuildIndex s).twr = s.twr ∧ (rebuildIndex s).rwk = s.rwk
      ∧ (rebuildIndex s).uma = s.uma ∧ (rebuildIndex s).evu = s.evu ∧ (rebuildIndex s).cme = s.cme
      ∧ (rebuildIndex s).out = s.out := by
  generalize ht : (rebuildIndex s) = t
  unfold rebuildIndex at ht
  dsimp only at ht
  repeat' split at ht
  all_goals
    (try subst_vars)
    simp

@[simp] theorem dependencyRebuildStep_frame (s : State) :
    (dependencyRebuildStep s).pending = s.pending ∧ (dependencyRebuildStep s).now = s.now
      ∧ (dependencyRebuildStep s).draws = s.draws ∧ (dependencyRebuildStep s).fsl = s.fsl
      ∧ (dependencyRebuildStep s).rsu = s.rsu ∧ (dependencyRebuildStep s).twr = s.twr
      ∧ (dependencyRebuildStep s).rwk = s.rwk ∧ (dependencyRebuildStep s).uma = s.uma
      ∧ (dependencyRebuildStep s).evu = s.evu ∧ (dependencyRebuildStep s).cme = s.cme
      ∧ (dependencyRebuildStep s).out = s.out := by
  simp [dependencyRebuildStep]

@[simp] theorem rebuildGroup_frame (g : Nat) (s : State) :
    (rebuildGroup g s).pending = s.pending ∧ (rebuildGroup g s).now = s.now ∧ (rebuildGroup g s).draws = s.draws
      ∧ (rebuildGroup g s).fsl = s.fsl ∧ (rebuildGroup g s).rsu = s.rsu ∧ (rebuildGroup g s).dpx = s.dpx
      ∧ (rebuildGroup g s).rwk = s.rwk ∧ (rebuildGroup g s).uma = s.uma ∧ (rebuildGroup g s).evu = s.evu
      ∧ (rebuildGroup g s).cme = s.cme ∧ (rebuildGroup g s).out = s.out := by
  generalize ht : (rebuildGroup g s) = t
  unfold rebuildGroup at ht
  repeat' split at ht
  all_goals
    (try simp only [Prod.ext_iff] at *)
    (try casesm* _ ∧ _)
    (try subst_vars)
    simp

@[simp] theorem rebuildStep_frame (s : State) :
    (rebuildStep s).pending = s.pending ∧ (rebuildStep s).now = s.now ∧ (rebuildStep s).draws = s.draws
      ∧ (rebuildStep s).fsl = s.fsl ∧ (rebuildStep s).rsu = s.rsu ∧ (rebuildStep s).dpx = s.dpx
      ∧ (rebuildStep s).rwk = s.rwk ∧ (rebuildStep s).uma = s.uma ∧ (rebuildStep s).evu = s.evu
      ∧ (rebuildStep s).cme = s.cme ∧ (rebuildStep s).out = s.out := by
  generalize ht : (rebuildStep s) = t
  unfold rebuildStep at ht
  split at ht
  · subst ht; simp
  · rename_i g l hl
    extract_lets s1 at ht
    have h1 : (readField (.groupStatus g) s).2 = s1 := rfl
    clear_value s1
    split at ht
    · rename_i s2 hs
      have h2 : readMembers false g (readHeader false g s1) = s2 := rfl
      clear_value s2
      split at ht <;> subst ht h2 h1 <;> simp
    · subst ht h1; simp

@[simp] theorem endPass_frame (s : State) :
    (endPass s).pending = s.pending ∧ (endPass s).now = s.now ∧ (endPass s).draws = s.draws
      ∧ (endPass s).fsl = s.fsl ∧ (endPass s).rsu = s.rsu ∧ (endPass s).groups = s.groups
      ∧ (endPass s).adjs = s.adjs ∧ (endPass s).dpx = s.dpx ∧ (endPass s).twr = s.twr ∧ (endPass s).uma = s.uma
      ∧ (endPass s).evu = s.evu ∧ (endPass s).rck = s.rck ∧ (endPass s).cme = s.cme ∧ (endPass s).out = s.out := by
  generalize ht : (endPass s) = t
  unfold endPass at ht
  all_goals
    (try subst_vars)
    simp

@[simp] theorem auditStep_frame (s : State) :
    (auditStep s).pending = s.pending ∧ (auditStep s).now = s.now ∧ (auditStep s).draws = s.draws
      ∧ (auditStep s).fsl = s.fsl ∧ (auditStep s).rsu = s.rsu ∧ (auditStep s).dpx = s.dpx
      ∧ (auditStep s).uma = s.uma ∧ (auditStep s).evu = s.evu ∧ (auditStep s).cme = s.cme
      ∧ (auditStep s).out = s.out := by
  generalize ht : (auditStep s) = t
  unfold auditStep at ht
  repeat' split at ht
  all_goals
    (try subst_vars)
    simp

end Sys2Proof.Machine
end

