-- ==== Sys2Proof/Laws/Events.lean ====
section
/-!
SUPPORT. What the end of an event does: the wake of a walker that has found no work, the vector messages of one event,
and the placing of a response.
-/

namespace Sys2Proof.Machine

open Sys2Proof

/-! ### Vector messages (R175, R176) -/

theorem countedRanks_congr {s t : State} (v : Nat) (h : t.nfu.sources = s.nfu.sources) :
    countedRanks t v = countedRanks s v := by
  simp [countedRanks, h]

theorem classCount_congr {s t : State} (v : Nat) (h : t.nfu.sources = s.nfu.sources) :
    classCount t v = classCount s v := by
  simp [classCount, countedRanks_congr v h]

theorem classCounts_getD (s : State) (v : Nat) (hv : v ∈ [0, 1, 2, 3]) :
    (classCounts s).getD v 0 = classCount s v := by
  simp only [List.mem_cons, List.not_mem_nil, or_false] at hv
  rcases hv with rfl | rfl | rfl | rfl <;> rfl

/-- A vector message joins the messages given to the port. -/
def addVectors (ms : List VectorMsg) (s : State) : State :=
  modNfu (fun n => { n with vectors := n.vectors ++ ms }) s

theorem addVectors_nil (s : State) : addVectors [] s = s := by
  simp [addVectors, modNfu]

theorem addVectors_append (a b : List VectorMsg) (s : State) :
    addVectors b (addVectors a s) = addVectors (a ++ b) s := by
  simp [addVectors, modNfu, List.append_assoc]

theorem vectorFor_eq (before : List Nat) (v : Nat) (s : State) :
    vectorFor before v s
      = addVectors (if before.getD v 0 = 0 then ((countedRanks s v).head?.map (fun r => { cls := v, lowest := r })).toList
          else []) s := by
  unfold vectorFor
  cases h : countedRanks s v with
  | nil => simp [addVectors_nil]
  | cons r l =>
    by_cases hb : before.getD v 0 = 0
    · rw [if_pos hb]; show (if _ then _ else _) = _; rw [if_pos hb]; rfl
    · rw [if_neg hb, addVectors_nil]; show (if _ then _ else _) = _; rw [if_neg hb]

/-- The end of an event gives the port the messages of `newVectors` and changes nothing else. -/
theorem flushVectors_eq (s t : State) : flushVectors (classCounts s) t = addVectors (newVectors s t) t := by
  have key : ∀ (ms : List VectorMsg) (v : Nat), v ∈ [0, 1, 2, 3] →
      vectorFor (classCounts s) v (addVectors ms t)
        = addVectors (ms ++ (if classCount s v = 0 then
            (countedRanks t v).head?.map (fun r => ({ cls := v, lowest := r } : VectorMsg)) else none).toList) t := by
    intro ms v hv
    rw [vectorFor_eq, classCounts_getD s v hv, addVectors_append, countedRanks_congr (s := t) v rfl]
    by_cases h : classCount s v = 0
    · rw [if_pos h, if_pos h]; rfl
    · rw [if_neg h, if_neg h]; rfl
  have h0 : t = addVectors [] t := (addVectors_nil t).symm
  unfold flushVectors forEach
  simp only [List.foldl_cons, List.foldl_nil]
  conv_lhs => rw [h0]
  rw [key _ 0 (by simp), key _ 1 (by simp), key _ 2 (by simp), key _ 3 (by simp)]
  congr 1
  unfold newVectors
  simp only [List.filterMap_cons, List.filterMap_nil, List.nil_append]
  by_cases a0 : classCount s 0 = 0 <;> by_cases a1 : classCount s 1 = 0 <;> by_cases a2 : classCount s 2 = 0 <;>
    by_cases a3 : classCount s 3 = 0 <;> simp only [a0, a1, a2, a3, if_true, if_false] <;>
    rcases (countedRanks t 0).head? with _ | r0 <;> rcases (countedRanks t 1).head? with _ | r1 <;>
    rcases (countedRanks t 2).head? with _ | r2 <;> rcases (countedRanks t 3).head? with _ | r3 <;> simp

theorem newVectors_self {s t : State} (h : t.nfu.sources = s.nfu.sources) : newVectors s t = [] := by
  unfold newVectors
  simp only [List.filterMap_eq_nil_iff]
  intro v hv
  rw [countedRanks_congr v h]
  split
  · rename_i h0
    have : countedRanks s v = [] := List.eq_nil_of_length_eq_zero h0
    simp [this]
  · rfl

theorem newVectors_congr {s s' t t' : State} (hs : s'.nfu.sources = s.nfu.sources)
    (ht : t'.nfu.sources = t.nfu.sources) : newVectors s' t' = newVectors s t := by
  unfold newVectors
  simp only [classCount_congr _ hs, countedRanks_congr _ ht]

/-! ### The walker (R136) -/

theorem wakeWalker_served {s : State} (h : WalkerServed s) : wakeWalker s = s := by
  unfold wakeWalker
  split
  · rename_i hi
    unfold stepBoundary
    rw [h hi.1 hi.2]
    simp only [modRwk]
    rw [← hi.1]
    cases s with
    | mk p n d fsl rsu groups adjs dpx twr rwk uma evu rck cme nfu out =>
      cases rwk; simp_all
  · rfl

/-- The end of an event that leaves an idle walker without work. -/
theorem endEvent_served {s t : State} (h : WalkerServed t) : endEvent s t = addVectors (newVectors s t) t := by
  rw [endEvent, wakeWalker_served h, flushVectors_eq]

/-- An event that leaves the sources as they were. -/
theorem endEvent_quiet {s t : State} (h : WalkerServed t) (hn : t.nfu.sources = s.nfu.sources) : endEvent s t = t := by
  rw [endEvent_served h, newVectors_self hn, addVectors_nil]

/-! ### Raises (R175) -/

theorem raised_none (s : State) : Raised [] s s := by
  refine ⟨fun k => by simp, ?_⟩
  rw [newVectors_self rfl, List.append_nil]

/-- A raise at the end of an event. -/
theorem raised_raise (r : Nat) (s t : State) (ht : t.nfu = s.nfu) :
    Raised [r] s (addVectors (newVectors s (raise r t)) (raise r t)) := by
  have hsrc : ∀ k, t.source k = s.source k := fun k => by simp [State.source, ht]
  refine ⟨fun k => ?_, ?_⟩
  · have : (addVectors (newVectors s (raise r t)) (raise r t)).source k = (raise r t).source k := rfl
    rw [this, source_raise, hsrc]
    simp
  · have h1 : newVectors s (addVectors (newVectors s (raise r t)) (raise r t)) = newVectors s (raise r t) :=
      newVectors_congr rfl rfl
    rw [h1]
    simp [addVectors, raise, setSource, modNfu, ht]

/-! ### Responses (R166) -/

/-- What placing a response does. -/
theorem placeResponse_responded (r : Response) (s : State) : Responded r s (placeResponse r s) := by
  have h : placeResponse r s = addVectors (newVectors s (enqueueResponse r s)) (enqueueResponse r s) :=
    flushVectors_eq s _
  rw [h]
  unfold enqueueResponse
  by_cases hr : s.cme.responses = []
  · simp only [hr, if_true]
    refine ⟨by simp [addVectors, raise, setSource, modNfu, modCme], by simp [addVectors, raise, setSource, modNfu, modCme, hr], ?_⟩
    simp only [hr, if_true]
    exact raised_raise rankResponse s _ rfl
  · simp only [hr, if_false]
    have hn := newVectors_self (s := s) (t := modCme (fun c => { c with responses := c.responses ++ [r] }) s) rfl
    rw [hn, addVectors_nil]
    refine ⟨by simp [modCme], by simp [modCme], ?_⟩
    simp only [hr, if_false]
    refine ⟨fun k => by simp [modCme, State.source], ?_⟩
    rw [hn, List.append_nil, modCme_nfu]

end Sys2Proof.Machine
end

