-- ==== Sys2Proof/Laws/Reads.lean ====
section
/-!
SUPPORT. Reads through record check while every unit is clean: each answers that its record can be used and changes
nothing; and what a settle then does.
-/

namespace Sys2Proof.Machine

open Sys2Proof

/-! ### Units and duplicated fields -/

/-- A write codes units afresh: where every unit is clean that changes nothing. -/
theorem writeUnits_clean (p : RecUnit → Bool) {s : State} (h : Clean s) : writeUnits p s = s := by
  simp [writeUnits, modRck, h.1]
  rw [← h.1]

theorem readUnit_clean (u : RecUnit) {s : State} (h : Clean s) : readUnit u s = (true, s) := by
  simp [readUnit, h.1, damageOf]

theorem readField_clean (f : DupField) {s : State} (h : Clean s) : readField f s = (true, s) := by
  simp [readField, h.2, readUnit_clean _ h]

theorem readBothCopies_clean (f : DupField) {s : State} (h : Clean s) : readBothCopies f s = (true, s) := by
  simp [readBothCopies, h.2, readUnit_clean _ h]

theorem readDup_clean (audit : Bool) (f : DupField) {s : State} (h : Clean s) : readDup audit f s = (true, s) := by
  simp [readDup, readField_clean f h, readBothCopies_clean f h]

theorem readFields_clean (audit : Bool) (l : List DupField) {s : State} (h : Clean s) :
    readFields audit l s = (true, s) := by
  induction l with
  | nil => rfl
  | cons f l ih => simp [readFields, readDup_clean audit f h, ih]

/-! ### Records -/

theorem readAdjContent_clean (a : Nat) {s : State} (h : Clean s) : readAdjContent a s = s := by
  simp [readAdjContent, readUnit_clean _ h]

theorem readAdjRecord_clean (audit : Bool) (a : Nat) {s : State} (h : Clean s) : readAdjRecord audit a s = (true, s) := by
  simp [readAdjRecord, readFields_clean audit _ h, readAdjContent_clean a h]

theorem readAdj_clean (audit : Bool) (a : Nat) {s : State} (h : Clean s) : readAdj audit a s = s := by
  simp [readAdj, readAdjRecord_clean audit a h]

theorem readAdjReturned_clean (a : Nat) {s : State} (h : Clean s) : readAdjReturned a s = s := by
  simp [readAdjReturned, readField_clean _ h, readAdjContent_clean a h]

theorem readAdjUplink_clean (a : Nat) {s : State} (h : Clean s) : readAdjUplink a s = (true, s) := by
  simp [readAdjUplink, readField_clean _ h, readAdjContent_clean a h]

theorem readAdjs_clean (whole : Bool) (l : List Nat) {s : State} (h : Clean s) : readAdjs whole l s = (true, s) := by
  induction l with
  | nil => rfl
  | cons a l ih => simp [readAdjs, readAdjRecord_clean false a h, readAdjUplink_clean a h, ih]

theorem readHeaderWith_clean (audit : Bool) (fs : List DupField) (g : Nat) {s : State} (h : Clean s) :
    readHeaderWith audit fs g s = s := by
  simp [readHeaderWith, readFields_clean audit _ h, readUnit_clean _ h]

theorem readHeader_clean (audit : Bool) (g : Nat) {s : State} (h : Clean s) : readHeader audit g s = s :=
  readHeaderWith_clean audit _ g h

theorem readMember_clean (audit : Bool) (g i : Nat) {s : State} (h : Clean s) : readMember audit g i s = s := by
  simp [readMember, readDup_clean audit _ h, readUnit_clean _ h]

theorem forEach_same (l : List Nat) (f : Nat → State → State) (s : State) (h : ∀ n ∈ l, f n s = s) : forEach l f s = s := by
  induction l with
  | nil => rfl
  | cons n l ih =>
    rw [forEach, List.foldl_cons, h n (List.mem_cons_self ..)]
    exact ih (fun k hk => h k (List.mem_cons_of_mem _ hk))

theorem readMembers_clean (audit : Bool) (g : Nat) {s : State} (h : Clean s) : readMembers audit g s = s :=
  forEach_same _ _ _ (fun i _ => readMember_clean audit g i h)

theorem readMemberAdjs_clean (audit : Bool) (g : Nat) {s : State} (h : Clean s) : readMemberAdjs audit g s = s :=
  forEach_same _ _ _ (fun a _ => readAdj_clean audit a h)

theorem readBucket_clean (g b : Nat) {s : State} (h : Clean s) : readBucket g b s = (true, s) := by
  simp [readBucket, readUnit_clean _ h]

theorem readBuckets_clean (g : Nat) (l : List Nat) {s : State} (h : Clean s) : readBuckets g l s = ([], s) := by
  induction l with
  | nil => rfl
  | cons b l ih => simp [readBuckets, readBucket_clean g b h, ih]

theorem readEntries_clean (u : Nat) (l : List Nat) {s : State} (h : Clean s) : readEntries u l s = (true, s) := by
  induction l with
  | nil => rfl
  | cons g l ih => simp [readEntries, readUnit_clean _ h, ih]

theorem readEntriesOf_clean (g : Nat) (l : List Nat) {s : State} (h : Clean s) : readEntriesOf g l s = (true, s) := by
  induction l with
  | nil => rfl
  | cons u l ih => simp [readEntriesOf, readEntries_clean _ _ h, ih]

theorem readLists_clean (l : List Nat) {s : State} (h : Clean s) : readLists l s = (true, s) := by
  induction l with
  | nil => rfl
  | cons u l ih => simp [readLists, readEntries_clean _ _ h, ih]

/-- The search for the first referencing group over clean records: the lowest of its handles that references `a`. -/
theorem firstReferencing_clean (a fuel g : Nat) {s : State} (h : Clean s) :
    firstReferencing a fuel g s
      = (match (List.range' g fuel).find? (fun k =>
          referencing (s.group k) && (s.group k).members.any (fun m => decide (m.adj = a))) with
        | some k => .found k
        | none => .noGroup, s) := by
  induction fuel generalizing g with
  | zero => rfl
  | succ n ih =>
    simp only [firstReferencing, readField_clean _ h, readFields_clean _ _ h, ih, List.range'_succ, List.find?_cons]
    by_cases h1 : referencing (s.group g) = true
    · by_cases h2 : ((s.group g).members.any (fun m => decide (m.adj = a))) = true <;> simp [h1, h2]
    · simp [h1]

theorem readMonitorRecord_clean (n : Nat) {s : State} (h : Clean s) : readMonitorRecord n s = s := by
  simp [readMonitorRecord, readUnit_clean _ h]

theorem notifyCleared_same (n : Nat) (s : State) : notifyCleared s n s = s := by
  simp only [notifyCleared, clearedBetween]
  split
  · rfl
  · simp

theorem readMonitor_clean (n : Nat) {s : State} (h : Clean s) : readMonitor n s = s := by
  rw [readMonitor, readMonitorRecord_clean n h, notifyCleared_same]

theorem readOthers_clean (n : Nat) {s : State} (h : Clean s) : readOthers n s = s :=
  forEach_same _ _ _ (fun k _ => readMonitor_clean k h)

/-! ### Live lists (R35) -/

theorem mem_trueIndices (i j : Nat) (l : List Bool) :
    j ∈ trueIndices i l ↔ i ≤ j ∧ l.getD (j - i) false = true := by
  induction l generalizing i with
  | nil => simp [trueIndices]
  | cons b l ih =>
    by_cases hj : j = i
    · subst hj
      cases b <;> simp [trueIndices, ih]
    · rcases Nat.lt_or_ge j i with hlt | hge
      · cases b <;> simp [trueIndices, ih, hj] <;> omega
      · obtain ⟨k, hk⟩ : ∃ k, j - i = k + 1 := ⟨j - i - 1, by omega⟩
        have hk' : j - (i + 1) = k := by omega
        cases b <;> simp [trueIndices, ih, hj, hk, hk'] <;> omega

/-- A member index is on the live list exactly when its member is live (R35). -/
theorem mem_liveList (s : State) (ms : List Member) (i : Nat) :
    i ∈ liveList s ms ↔ (liveMarks s ms).getD i false = true := by
  simp [liveList, mem_trueIndices]

/-- A settle that leaves no bucket as stored, as one rule over the live list (R38, R39). -/
theorem settledGroup_eq (s : State) (r : Group) : settledGroup (liveMarks s r.members) [] r = settled s r := by
  have hm : ∀ l : List Member, l.zipWith (fun m live => { m with withdrawn := !live }) (l.map (memberLive s))
      = l.map (fun m => { m with withdrawn := !memberLive s m }) := by
    intro l
    induction l with
    | nil => rfl
    | cons m l ih => simp [ih]
  have hb : settledBuckets (liveMarks s r.members) [] r.buckets = (settled s r).buckets := by
    simp only [settledBuckets, settled]
    congr 1
    funext b k
    simp only [List.not_mem_nil, if_false, settledCurrent, mem_liveList, substitute]
    rfl
  simp only [settledGroup, hb]
  simp only [liveMarks, hm]
  rfl

/-! ### What a read of a group serves, and a settle -/

theorem readServed_clean (asBackup : Bool) (x hash : Nat) {s : State} (h : Clean s)
    (hs : (s.group x).status = .installed) :
    readServed asBackup x hash s = (some
      { bucket := bucketOf (s.group x) hash
        current := (s.group x).buckets[bucketOf (s.group x) hash]?.map (·.current)
        live := liveList s (s.group x).members }, s) := by
  simp [readServed, readHeaderWith_clean false _ x h, readBucket_clean _ _ h, readMembers_clean false x h,
    readMemberAdjs_clean false x h, hs]

theorem readServed_clean_none (asBackup : Bool) (x hash : Nat) {s : State} (h : Clean s)
    (hs : (s.group x).status ≠ .installed) :
    readServed asBackup x hash s = (none, s) := by
  simp [readServed, readHeaderWith_clean false _ x h, hs]

/-- A settle of a group of clean records: its marks, current members, live count and depleted-set entry. -/
theorem settleRecord_clean (audit : Bool) (g : Nat) {s : State} (h : Clean s) :
    let old := s.group g
    let new := settled s old
    settleRecord audit g s = (settleChanged old new, updateDepleted g new.notify new.liveCount (setGroup g new s)) := by
  simp [settleRecord, readMemberAdjs_clean audit g h, readBuckets_clean g _ h, settledGroup_eq]

/-- A settle step over clean records. -/
theorem settleStep_clean (audit : Bool) (g : Nat) {s : State} (h : Clean s) :
    settleStep audit g s =
      if (s.group g).status = .installed then
        if (settleRecord audit g s).1 then publish g (settleRecord audit g s).2 else (settleRecord audit g s).2
      else s := by
  simp only [settleStep, readHeader_clean audit g h, readMembers_clean audit g h]

theorem settleStep_not_installed (audit : Bool) (g : Nat) {s : State} (h : Clean s)
    (hs : (s.group g).status ≠ .installed) : settleStep audit g s = s := by
  rw [settleStep_clean audit g h, if_neg hs]

end Sys2Proof.Machine
end

