-- ==== Sys2Proof/Laws/Engine.lean ====
section
/-!
SUPPORT. The command engine: when it takes a record, what taking one does, and the rows of the host's commands.
-/

namespace Sys2Proof.Machine

open Sys2Proof

/-! ### The walker's choice depends on its own inputs alone (R137) -/

theorem mostUrgent_congr {s t : State} (h : ∀ n, (t.mon n).cfg.priority = (s.mon n).cfg.priority) (l : List Nat) :
    mostUrgent t l = mostUrgent s l := by
  induction l with
  | nil => rfl
  | cons a l ih => simp only [mostUrgent, ih, level, h]; rfl

theorem chooseWork_congr {s t : State} (h1 : t.rwk.jobs = s.rwk.jobs) (h2 : t.rwk.audit = s.rwk.audit)
    (h3 : t.rck.dependencyPending = s.rck.dependencyPending) (h4 : t.rck.tableFault = s.rck.tableFault)
    (h5 : t.rck.rebuildList = s.rck.rebuildList) (h6 : ∀ n, (t.mon n).cfg.priority = (s.mon n).cfg.priority) :
    chooseWork t = chooseWork s := by
  simp only [chooseWork, jobsInProgress, jobsPending, preempted, level, mostUrgent_congr h6, h1, h2, h3, h4, h5, h6]
  rfl

theorem served_congr {s t : State} (hw : WalkerServed s) (h1 : t.rwk = s.rwk)
    (h3 : t.rck.dependencyPending = s.rck.dependencyPending) (h4 : t.rck.tableFault = s.rck.tableFault)
    (h5 : t.rck.rebuildList = s.rck.rebuildList) (h6 : ∀ n, (t.mon n).cfg.priority = (s.mon n).cfg.priority) :
    WalkerServed t := by
  intro a b
  rw [chooseWork_congr (by rw [h1]) (by rw [h1]) h3 h4 h5 h6]
  exact hw (by rw [← h1]; exact a) (by rw [← h1]; exact b)

/-! ### Taking records (R164, R165) -/

theorem canTake_iff (s : State) : canTake s = true ↔ s.cme.executing = none ∧ s.cme.responses.length < 16 := by
  unfold canTake
  rw [Bool.and_eq_true, Option.isNone_iff_eq_none, decide_eq_true_eq]
  rfl

/-- An engine with nothing queued, or that cannot take, does nothing. -/
theorem runEngine_idle (s : State) (h : s.cme.queue = [] ∨ canTake s = false) : runEngine s = s := by
  unfold runEngine
  rcases hq : s.cme.queue with _ | ⟨r, q⟩
  · rfl
  · simp only [List.length_cons, takeAll, hq]
    rcases h with h | h
    · simp [hq] at h
    · simp [h]

theorem perform_queue (c : HostCmd) (s : State) : (perform c s).state.cme.queue = s.cme.queue := by
  cases c <;> simp [perform]
  case countersRead c => simp only [performCountersRead]; split <;> rfl

/-- What a taken record does leaves the queue to the taking. -/
theorem takeRecord_queue (r : List Byte) (s : State) : (takeRecord r s).cme.queue = s.cme.queue := by
  have hp : ∀ r s, (placeResponse r s).cme.queue = s.cme.queue := fun r s => by
    rw [(placeResponse_responded r s).queued]
  unfold takeRecord takeCommand performAtOnce claimEngine
  repeat' split
  all_goals simp [hp, endEvent, perform_queue, modCme]

/-- An engine that can take takes the head record and goes on. -/
theorem runEngine_take (s : State) (r : List Byte) (q : List (List Byte)) (hq : s.cme.queue = r :: q)
    (hc : canTake s = true) :
    runEngine s = runEngine (takeRecord r (modCme (fun c => { c with queue := q }) s)) := by
  unfold runEngine
  rw [takeRecord_queue, hq]
  simp [takeAll, hq, hc]

theorem runEngine_last (s : State) (r : List Byte) (hq : s.cme.queue = [r]) (hc : canTake s = true) :
    runEngine s = takeRecord r (modCme (fun c => { c with queue := [] }) s) := by
  rw [runEngine_take s r [] hq hc, runEngine_idle]
  left
  rw [takeRecord_queue]
  rfl

theorem takeRecord_refused (r : List Byte) (s : State) (st : Status) (h : parseRecord r = .error st) :
    takeRecord r s = placeResponse (refusing (recordTag r) (recordCode r) st) s := by
  simp [takeRecord, h, refusing, answering, headerRefusal]

theorem takeRecord_fault (r : List Byte) (s : State) (c : HostCmd) (h : parseRecord r = .ok c) (ht : isTable c = true)
    (hf : s.rck.tableFault = true) :
    takeRecord r s = placeResponse (refusing (recordTag r) c.code .damaged) s := by
  simp [takeRecord, h, takeCommand, ht, hf, refusing, answering, headerRefusal]

theorem takeRecord_table (r : List Byte) (s : State) (c : HostCmd) (h : parseRecord r = .ok c) (ht : isTable c = true)
    (hf : s.rck.tableFault = false) :
    takeRecord r s = { s with
      cme := { s.cme with executing := some { tag := recordTag r, cmd := c } }
      twr := if s.twr.performing = none then { s.twr with performing := some .engine, runCount := 0 } else s.twr } := by
  simp only [takeRecord, h, takeCommand, ht, hf, claimEngine, startEngine, modCme, modTwr]
  by_cases hp : s.twr.performing = none <;> simp [hp]

/-! ### The rows of host commands -/

theorem rowOf_read (tag : Half) (c : HostCmd) (s : State) (h : isTable c = false) :
    exec (rowOf tag c) s = .next (readStep tag c s) := by
  cases c <;> first | rfl | simp [isTable] at h

theorem rowOf_table (tag : Half) (c : HostCmd) (s : State) (h : isTable c = true) :
    exec (rowOf tag c) s = .next (tableStep tag c s) := by
  cases c <;> first | rfl | simp [isTable] at h

theorem ready_of_free (c : HostCmd) (s : State) (h : EngineFree s) (hf : c.fits = true) : ready c s = true := by
  obtain ⟨h1, h2, h3, -⟩ := h
  simp [ready, canTake, h1, h2, hf, h3]

/-- A command that is no table command is performed, its event ended and its response placed. -/
theorem readRow (tag : Half) (c : HostCmd) (s : State) (h : isTable c = false) (he : EngineFree s)
    (hf : c.fits = true) :
    exec (rowOf tag c) s
      = .next (placeResponse (responseOf tag c.code (perform c s)) (endEvent s (perform c s).state)) := by
  rw [rowOf_read tag c s h]
  simp [readStep, ready_of_free c s he hf, performAtOnce]

theorem readRow_quiet (tag : Half) (c : HostCmd) (s u : State) (r : Response) (h : isTable c = false)
    (he : EngineFree s) (hf : c.fits = true) (hu : (perform c s).state = u)
    (hr : responseOf tag c.code (perform c s) = r) (hw : WalkerServed u) (hn : u.nfu.sources = s.nfu.sources) :
    exec (rowOf tag c) s = .next (placeResponse r u) := by
  rw [readRow tag c s h he hf, hu, hr, endEvent_quiet hw hn]

/-- A command that leaves the part as it was answers its response. -/
theorem readRow_answers (tag : Half) (c : HostCmd) (s : State) (r : Response) (h : isTable c = false)
    (he : EngineFree s) (hf : c.fits = true) (hw : WalkerServed s) (hu : (perform c s).state = s)
    (hr : responseOf tag c.code (perform c s) = r) : Answers (rowOf tag c) r s :=
  ⟨_, readRow_quiet tag c s s r h he hf hu hr hw rfl, placeResponse_responded _ _⟩

end Sys2Proof.Machine
end

