-- ==== Sys2Proof/Tests/Slice0.lean ====
section
/-!
SUPPORT. Tests: ill-formed commands refused, command records and link messages written out byte by byte from R188 and
R187, the manual's worked examples, and for each statement with hypotheses a state and operands that meet them.
-/

namespace Sys2Proof.Tests

open Sys2Proof Sys2Proof.Machine

/-! ### Ill-formed commands -/

theorem test_wellFormed_unused_inside_window : wellFormed (.ignoredWrite (.unused 0x100)) = false := by decide
theorem test_wellFormed_unused_status_word : wellFormed (.ignoredWrite (.unused 3)) = false := by decide
theorem test_wellFormed_unused_outside : wellFormed (.ignoredWrite (.unused 0x300)) = true := by decide
set_option maxRecDepth 20000 in
/-- A PORT_NOTICE of DOWN for P5 with its check sequence is no bad message. -/
theorem test_wellFormed_bad_message_that_is_good :
    wellFormed (.badMessage .general [0x02, 0x02, 0x05, 0x02, 0xD8, 0x7F]) = false := by decide
set_option maxRecDepth 20000 in
theorem test_wellFormed_bad_message_with_wrong_check :
    wellFormed (.badMessage .general [0x02, 0x02, 0x05, 0x02, 0xD8, 0x7E]) = true := by decide

/-- A GROUP_WRITE of `n` members of adjacency 1. -/
def someGroupWrite (n : Nat) : GroupArgs :=
  { group := 5, bucketClass := 0, stripe := 1, offset := 0, backup := 0xFFFF, policy := 0, notify := 1,
    members := List.replicate n { adj := 1, weight := 1, enabled := 1 } }

theorem test_wellFormed_group_write_too_long : wellFormed (.groupWrite 0 (someGroupWrite 60)) = false := by decide
theorem test_wellFormed_group_write_longest : wellFormed (.groupWrite 0 (someGroupWrite 59)) = true := by decide

/-! ### Command records written out from R188 -/

theorem test_record_identify : parseRecord [0x01, 0, 0x12, 0x34, 0, 0] = .ok .identify := by decide
theorem test_record_adj_write :
    parseRecord [0x10, 0, 0, 7, 0, 6, 0x1F, 0xFF, 0x7F, 0xAB, 0xCD, 0xFF] = .ok (.adjWrite 0x1FFF 0x7F 0xABCD 0xFF) := by
  decide
theorem test_record_group_write :
    parseRecord [0x20, 0, 0, 7, 0, 15, 0x00, 0x05, 0x01, 0x02, 0x00, 0x7B, 0xFF, 0xFF, 0x01, 0x00, 0x01,
        0x00, 0x03, 0xFA, 0x01]
      = .ok (.groupWrite
          { group := 5, bucketClass := 1, stripe := 2, offset := 123, backup := 0xFFFF, policy := 1, notify := 0,
            members := [{ adj := 3, weight := 250, enabled := 1 }] }) := by decide
theorem test_record_member_set :
    parseRecord [0x23, 0, 0, 7, 0, 4, 0x0F, 0xFF, 0x0F, 0x00] = .ok (.memberSet 0x0FFF 15 0) := by decide
theorem test_record_resolve_test :
    parseRecord [0x25, 0, 0, 7, 0, 4, 0x00, 0x05, 0x9C, 0x41] = .ok (.resolveTest 5 40001) := by decide
theorem test_record_monitor_write :
    parseRecord [0x30, 0, 0, 7, 0, 36, 2, 0x0F, 0x7F, 1, 0x00, 0x11, 0x00, 0x22, 0xFF, 0xFF, 3, 2, 1, 1, 1, 0, 1, 0, 3,
        0x00, 0x32, 0x00, 0x1E, 0x00, 0x64, 0x00, 0x64, 0x00, 0x65, 3, 8, 1, 2, 24, 16, 8]
      = .ok (.monitorWrite
          { monitor := 2, losLine := 15, boundPort := 127, session := 1, localDisc := 0x11, remoteDisc := 0x22,
            matchMask := 0xFFFF, losReaction := 3, portReaction := 2, peerReaction := 1, latchMode := 1, echoLos := 1,
            echoPort := 0, drain := 1, signal := 0, priority := 3, holdBase := 50, flapWindow := 30, qualifyTime := 100,
            txInterval := 100, minRx := 101, qualifyCount := 3, missWeight := 8, errorWeight := 1, recoveryStep := 2,
            downAt := 24, suspectAt := 16, clearAt := 8 }) := by decide
theorem test_record_enable : parseRecord [0x32, 0xAA, 0, 7, 0, 1, 31] = .ok (.enable 31) := by decide
theorem test_record_evidence_write :
    parseRecord [0x38, 0, 0, 7, 0, 8, 1, 127, 0, 0, 0, 0, 0x00, 0x14] = .ok (.evidenceWrite 1 127 0 0 20) := by decide
theorem test_record_audit_set : parseRecord [0x41, 0, 0, 7, 0, 2, 0x0E, 0x10] = .ok (.auditSet 3600) := by decide
theorem test_record_event_config :
    parseRecord [0x60, 0, 0, 7, 0, 5, 3, 34, 1, 2, 0] = .ok (.eventConfig 3 34 1 2 0) := by decide
theorem test_record_unknown_command : parseRecord [0x37, 0, 0, 7, 0, 1, 3] = .error .unknownCommand := by decide
theorem test_record_bad_length : parseRecord [0x32, 0, 0, 7, 0, 2, 3] = .error .badLength := by decide
theorem test_record_tag : recordTag [0x01, 0, 0x12, 0x34, 0, 0] = 0x1234 := by decide

/-! ### Messages of the forwarding chip written out from R187, and reads of the window -/

set_option maxRecDepth 20000 in
/-- The PORT_NOTICE of DOWN for P5, read from its bytes. -/
theorem test_inbound_port_notice :
    inboundCommand .general [0x02, 0x02, 0x05, 0x02, 0xD8, 0x7F] = some (.portNotice 5 2) := by decide
/-- A RESOLVE_REQ: kind 01, body 5, tag, group, hash, each most significant byte first. -/
theorem test_inbound_resolve_req :
    (inboundFrame (.resolveReq 0xAB 0x0102 0x9C41)).map (fun e => (e.1, e.2.take 7))
      = some (.request, [0x01, 0x05, 0xAB, 0x01, 0x02, 0x9C, 0x41]) := by decide
/-- A PROBE_ARRIVAL: kind 03, body 8, port, state, discriminators, interval. -/
theorem test_inbound_probe_arrival :
    (inboundFrame (.probeArrival 3 1 0x1122 0x3344 100)).map (fun e => (e.1, e.2.take 10))
      = some (.general, [0x03, 0x08, 0x03, 0x01, 0x11, 0x22, 0x33, 0x44, 0x00, 0x64]) := by decide
/-- A CREDIT of 64 under the general marker: kind 84, body 1, count. -/
theorem test_outbound_credit :
    (messageFrame (.credit 64)).1 = .general ∧ (messageFrame (.credit 64)).2.take 3 = [0x84, 0x01, 0x40] := by decide
/-- A RESOLVE_ANS under the general marker: kind 81, body 11, tag, group, verdict, reason, flags, port, rewrite, revision. -/
theorem test_outbound_resolve_ans :
    (fun e : Marker × List Byte => (e.1, e.2.take 13)) (answerFrame
      { tag := 0xAB
        content := { group := 0x0102, verdict := .forward, reason := .none, port := 5, rewrite := 0x0304,
                     substitute := true, backup := false, revision := 7 } })
      = (.general, [0x81, 0x0B, 0xAB, 0x01, 0x02, 0x00, 0x00, 0x01, 0x05, 0x03, 0x04, 0x00, 0x07]) := by decide
/-- R162 after reset: 16 free command entries, nothing else. -/
theorem test_status_word_at_reset : hostReadData .statusWord 4 State.reset = [0, 0, 0, 0x10] := by decide
theorem test_read_of_command_window : hostReadData .commandWindow 3 State.reset = [0, 0, 0] := by decide
/-- R165: a refused GROUP_READ carries the length and zeros of its fixed fields. -/
theorem test_refused_group_read_length :
    (responseBytes (refusing 7 0x22 .range)).drop 6 = [0x00, 0x10] ++ List.replicate 16 0 := by decide

/-- R188 over R92's lists: raw level asserted 0, filtered state clear 1, timer stopped 0 with no time left, filters
100 us and 10 ms, both counters 0, the set of U1. -/
theorem test_line_bytes :
    lineBytes { raw := true } 0 [1]
      = [0, 1, 0, 0, 0, 0, 0, 0, 0, 0, 100, 0, 10, 0, 0, 0, 0, 0, 0, 0, 2] := by decide
/-- CLEAR_LATCH with the line asserted: the latch set, the filtered state asserted. -/
theorem test_clear_latch_bytes : fieldBytes (.latch true true) = [1, 0] := by decide

/-! ### Worked examples of the manual -/

/-- Section 2.1: weights 5, 3, 1 over 16 buckets. -/
theorem test_deal_example : homeCounts [5, 3, 1] 16 = [9, 5, 2] := by decide
theorem test_deal_equal_weights : homeCounts [1, 1, 1] 16 = [6, 5, 5] := by decide
theorem test_deal_donor : homeCounts [250, 4, 1] 16 = [14, 1, 1] := by decide
theorem test_deal_two_heavy : homeCounts [127, 127, 1] 16 = [8, 7, 1] := by decide
theorem test_place_contiguous : placement .contiguous [9, 5, 2] = [0, 0, 0, 0, 0, 0, 0, 0, 0, 1, 1, 1, 1, 1, 2, 2] := by
  decide
theorem test_place_round : placement .round [9, 5, 2] = [0, 1, 2, 0, 1, 2, 0, 1, 0, 1, 0, 1, 0, 0, 0, 0] := by decide
theorem test_place_pairs : placement .pairs [9, 5, 2] = [0, 0, 1, 1, 2, 2, 0, 0, 1, 1, 0, 0, 1, 0, 0, 0] := by decide
/-- R32: h = 40001 and o = 123 select bucket 12 of 16. -/
theorem test_bucket_of_hash : bucketOf { offset := 123 } 40001 = 12 := by decide
/-- R112: down 10, suspect 12, clear 12 store 10, 9 and 8; down 1, suspect 0, clear 0 store 2, 1 and 0. -/
theorem test_thresholds : (storedDown 10, storedSuspect 10 12, storedClearAt 9 12) = (10, 9, 8) := by decide
theorem test_thresholds_low : (storedDown 1, storedSuspect 2 0, storedClearAt 1 0) = (2, 1, 0) := by decide
/-- R78: the hold-downs of a base of 50 ms. -/
theorem test_hold_downs :
    [0, 1, 2, 3, 4, 5, 6].map (fun f => holdTime { ({} : Monitor) with flap := f })
      = [50000, 100000, 200000, 400000, 800000, 1600000, 3200000] := by decide

/-! ### States -/

/-- The part after device reset with the records of one block. -/
def withMonitor (n : Nat) (m : Monitor) (s : State) : State := setMon n m s
def withPort (p : Nat) (q : Port) (s : State) : State := setPort p q s
def withLine (l : Nat) (x : Line) (s : State) : State := setLine l x s

/-- The link is ACTIVE with credits outstanding. -/
def linked (credits : Nat) (s : State) : State := { s with fsl := { s.fsl with link := .active, credits := credits } }

/-- A response that waits. -/
def waitingResponse : Response := answering 7 0x11 .ok .empty

/-- Group 5: members A1 on U2 and A2 on no uplink, 16 buckets, settled while U2 is not live. -/
def group5 : Group :=
  { status := .installed, revision := 1, liveCount := 1
    members := [{ adj := 1, weight := 1, enabled := true, withdrawn := true, homeCount := 8 },
                { adj := 2, weight := 1, enabled := true, withdrawn := false, homeCount := 8 }]
    buckets := List.replicate 8 { home := 0, current := 1 } ++ List.replicate 8 { home := 1, current := 1 } }

/-- A1 on U2, A2 on no uplink, both named by group 5; A3 free, A8191 free and DAMAGED. -/
def tables : State :=
  { State.reset with
    adjs := [(1, { status := .valid, port := 3, rewrite := 9, uplink := some 2, refs := 1 }),
             (2, { status := .valid, port := 4, rewrite := 8, refs := 1 }),
             (3, { status := .valid, port := 127, rewrite := 7, uplink := some 31 }),
             (8191, { status := .damaged })]
    groups := [(5, group5)]
    dpx := { lists := [(2, [5])], free := 16383 } }

/-- `tables` with group 5 DAMAGED. -/
def damagedTables : State := { tables with groups := [(5, { group5 with status := .damaged })] }

/-- `tables` with A1 DAMAGED. -/
def damagedAdj : State := setAdj 1 { status := .damaged, port := 0, rewrite := 0, uplink := none, refs := 1 } tables

/-- A table command's premises. -/
abbrev Ready (s : State) : Prop :=
  EngineFree s ∧ WriterFree s ∧ WalkerServed s ∧ Clean s ∧ s.rck.tableFault = false

/-- A host command's premises. -/
abbrev Free (s : State) : Prop := EngineFree s ∧ WalkerServed s ∧ Clean s

/-- An event's premises. -/
abbrev Quiet (s : State) : Prop := WalkerServed s ∧ Clean s

/-- The walker's step of `w` is the table writer's operation. -/
def granted (w : Work) (s : State) : State :=
  { s with rwk := { s.rwk with work := w, inFlight := true }, twr := { s.twr with performing := some .walker } }

/-- The walker serves a job for U2. -/
def jobOn (j : Job) (s : State) : State := granted (.job 2) { s with rwk := { s.rwk with jobs := [(2, some j)] } }

/-- A monitor on LOS1 and P3 in a state. -/
def bound (st : MonState) : Monitor := { state := st, active := { los := some 1, port := some 3 } }

/-- The same with a session. -/
def session (st : MonState) : Monitor :=
  { state := st, active := { los := some 1, port := some 3, session := true, localDisc := 17, matchMask := 0xFFFF,
                             remoteDisc := 34 } }

/-! ### Witnesses: steps, resets, the route-processor port -/

theorem witness_StepRunsFrontCommandOrTicks :
    ({ State.reset with pending := [.rppReset, .commandTake] } : State).pending = .rppReset :: [.commandTake]
      ∧ State.reset.pending = [] := by decide

theorem witness_RppResetEmptiesQueuesAndMasksSources :
    tableWf {} ({ State.reset with nfu := { sources := [(1, { masked := false })] } } : State).nfu.sources = true := by
  decide

/-- A full command queue, behind a table command in execution. -/
def fullQueue : State :=
  { State.reset with
    cme := { queue := List.replicate 16 [1], executing := some { tag := 0, cmd := .adjDelete 1 } }
    twr := { performing := some .engine } }

theorem witness_CommandWindowWrite_full : 16 ≤ fullQueue.cme.queue.length ∧ WalkerServed fullQueue := by decide
theorem witness_CommandWindowWrite_queued :
    ({ fullQueue with cme := { fullQueue.cme with queue := List.replicate 15 [1] } } : State).cme.queue.length < 16
      ∧ fullQueue.cme.executing.isSome = true
      ∧ 16 ≤ ({ responses := List.replicate 16 waitingResponse } : Cme).responses.length
      ∧ ({ responses := List.replicate 16 waitingResponse } : Cme).queue.length < 16 := by decide
theorem witness_CommandWindowWrite_taken :
    EngineFree State.reset ∧ EngineFree { State.reset with rck := { tableFault := true } }
      ∧ parseRecord [0x37, 0, 0, 7, 0, 0] = .error .unknownCommand
      ∧ parseRecord [0x11, 0, 0, 7, 0, 2, 0, 1] = .ok (.adjDelete 1) ∧ isTable (.adjDelete 1) = true
      ∧ parseRecord [0x40, 0, 0, 7, 0, 0] = .ok .jobStatus ∧ isTable .jobStatus = false
      ∧ HostCmd.fits .jobStatus = true := by decide

theorem witness_ResponseWindowReadRemovesTheHead :
    State.reset.cme.responses = []
      ∧ ({ responses := [waitingResponse] } : Cme).responses = waitingResponse :: []
      ∧ ({ responses := [waitingResponse], executing := some { tag := 0, cmd := .adjDelete 1 } } : Cme).executing.isSome
        = true
      ∧ ({ responses := [waitingResponse] } : Cme).queue = []
      ∧ 16 < ({ responses := List.replicate 17 waitingResponse } : Cme).responses.length := by decide

/-- The engine is IDLE with one record waiting. -/
def oneWaiting (r : List Byte) : State := { State.reset with cme := { queue := [r] } }

theorem witness_CommandTake_cannot :
    State.reset.cme.queue = [] ∧ fullQueue.cme.executing.isSome = true
      ∧ 16 ≤ ({ responses := List.replicate 16 waitingResponse } : Cme).responses.length := by decide
/-- A table command in execution that the table writer has not granted, and one whose operation finds table fault. -/
theorem witness_CommandTake_in_execution :
    isTable (.adjDelete 1) = true ∧ fullQueue.cme.executing = some { tag := 0, cmd := .adjDelete 1 }
      ∧ ({ fullQueue with twr := { performing := some .walker } } : State).twr.performing ≠ some .engine
      ∧ (let s : State := { fullQueue with
          cme := { fullQueue.cme with queue := [] }
          rck := { tableFault := true } }
         s.twr.performing = some .engine ∧ s.cme.queue = [] ∧ WalkerServed s ∧ s.rck.tableFault = true) := by decide
theorem witness_CommandTake_takes :
    (oneWaiting [0x37]).cme.executing = none ∧ (oneWaiting [0x37]).cme.responses.length < 16
      ∧ ({ responses := List.replicate 15 waitingResponse } : Cme).responses.length < 16
      ∧ (oneWaiting [0x37]).cme.queue = [0x37] :: []
      ∧ parseRecord [0x37] = .error .unknownCommand
      ∧ parseRecord [0x11, 0, 0, 7, 0, 2, 0, 1] = .ok (.adjDelete 1) ∧ isTable (.adjDelete 1) = true
      ∧ (oneWaiting []).rck.tableFault = false
      ∧ ({ oneWaiting [] with rck := { tableFault := true } } : State).rck.tableFault = true
      ∧ parseRecord [0x40, 0, 0, 7, 0, 0] = .ok .jobStatus ∧ isTable .jobStatus = false
      ∧ HostCmd.fits .jobStatus = true := by decide

/-- A command performed at once with a second record behind it. -/
theorem witness_CommandTake_goes_on :
    (let s : State := { State.reset with cme := { queue := [[0x40, 0, 0, 7, 0, 0], [0x37]] } }
     s.cme.executing = none ∧ s.cme.responses.length < 16 ∧ s.cme.queue = [0x40, 0, 0, 7, 0, 0] :: [[0x37]]
       ∧ parseRecord [0x40, 0, 0, 7, 0, 0] = .ok .jobStatus ∧ HostCmd.fits .jobStatus = true) := by decide

theorem witness_IgnoredWritesAndVectorMessages :
    State.reset.nfu.vectors = [] ∧ ({ vectors := [{ cls := 3, lowest := 70 }] } : Nfu).vectors
      = { cls := 3, lowest := 70 } :: []
      ∧ ({ responses := List.replicate 16 waitingResponse } : Cme).responses.length ≤ 16
      ∧ fullQueue.cme.queue.length ≤ 16 := by decide

set_option maxRecDepth 20000 in
theorem witness_CommandRecordReadsBack :
    HostCmd.fits .identify = true ∧ HostCmd.fits (.groupWrite (someGroupWrite 59)) = true
      ∧ HostCmd.fits (.groupWrite (someGroupWrite 0)) = true := by decide

theorem witness_InboundFrames :
    (inboundFrame (.resolveReq 0 0xFFFF 0)).isSome = true ∧ (inboundFrame (.portNotice 0xFF 0)).isSome = true
      ∧ (inboundFrame (.probeArrival 0 3 0 0 0xFFFF)).isSome = true := by decide

/-! ### Witnesses: commands performed at their taking -/

/-- The engine is free with 15 responses waiting and an event source pending. -/
def busyHost : State :=
  { tables with
    now := 5000000
    cme := { responses := List.replicate 15 waitingResponse }
    nfu := { sources := [(3, { pending := true, masked := false }), (70, { pending := true, masked := false, cls := 3 })] } }

theorem witness_StatusReadsAnswerTheStateOfTheirInstant :
    EngineFree busyHost ∧ WalkerServed busyHost ∧ EngineFree State.reset ∧ WalkerServed State.reset
      ∧ 4096 ≤ (4096 : Half).toNat ∧ (4095 : Half).toNat < 4096 := by decide
theorem witness_CountersReadReturnsThenClears : EngineFree busyHost ∧ WalkerServed busyHost := by decide
theorem witness_ReadsReturnVisibleContent :
    Free tables ∧ Free damagedTables ∧ Free damagedAdj ∧ 8192 ≤ (8192 : Half).toNat ∧ (8191 : Half).toNat < 8192
      ∧ 4096 ≤ (4096 : Half).toNat ∧ (4095 : Half).toNat < 4096 ∧ (tables.group 4095).status = .notInstalled
      ∧ (tables.group 5).status = .installed ∧ (damagedTables.group 5).status = .damaged
      ∧ (tables.adj 0).status = .invalid ∧ (tables.adj 1).status = .valid ∧ (tables.adj 8191).status = .damaged := by
  decide
/-- One unit of storage that does not read clean. -/
def damaged (u : RecUnit) (d : Damage) (s : State) : State := { s with rck := { s.rck with damage := [(u, d)] } }

/-- A field whose both copies read uncorrectable. -/
def lostField (f : DupField) (s : State) : State :=
  { s with rck := { s.rck with damage := [(.copy f false, .uncorrectable), (.copy f true, .uncorrectable)] } }

theorem witness_ReadsReturnVisibleContent_adjacency :
    (∀ d ∈ [Damage.correctable, .uncorrectable], OnlyDamaged (.adjContent 1) d (damaged (.adjContent 1) d tables)
        ∧ OnlyDamaged (.copy (.adjRefs 1) false) d (damaged (.copy (.adjRefs 1) false) d tables)
        ∧ WalkerServed (damaged (.adjContent 1) d tables))
      ∧ EngineFree tables ∧ (tables.adj 1).status ≠ .damaged
      ∧ ∀ f ∈ [DupField.adjStatus 1, .adjRefs 1], OnlyLost f (lostField f tables)
        ∧ OnlyLost f (lostField f damagedAdj) := by decide
/-- R149, R157, R171: ADJ_READ of an adjacency whose status is lost still reads the count that it returns, whose failing
first copy is rewritten and counted. -/
theorem test_adj_read_reads_the_count_of_a_lost_status :
    (let f := DupField.adjStatus 1
     let o := performAdjRead 1 { tables with rck := { tables.rck with
       damage := [(.copy f false, .uncorrectable), (.copy f true, .uncorrectable),
         (.copy (.adjRefs 1) false, .uncorrectable)] } }
     o.status = .ok ∧ o.result = .adjacency .damaged 0 0 none (tables.adj 1).refs
       ∧ o.state.rck.corrected.adjacency = tables.rck.corrected.adjacency + 1
       ∧ o.state.rck.lostCount = tables.rck.lostCount + 1
       ∧ damageOf (.copy (.adjRefs 1) false) o.state.rck.damage = none) := by decide
/-- R66, R87: a hold-down timer that is expired and held is condition 2, and has no time left. -/
theorem test_hold_down_held : holdBytes 5 .held = [2, 0, 0] ∧ holdBytes 5 (.running 1006) = [1, 0, 2] := by decide
theorem witness_ReadsReturnVisibleContent_group :
    (∀ u ∈ [RecUnit.headerContent 5, .memberContent 5 1, .bucket 5 15, .copy (.groupBackup 5) false,
        .copy (.memberLink 5 1) false], ∀ d ∈ [Damage.correctable, .uncorrectable],
        OnlyDamaged u d (damaged u d tables) ∧ WalkerServed (damaged u d tables))
      ∧ (tables.group 5).status = .installed ∧ 1 < (tables.group 5).members.length
      ∧ 15 < (tables.group 5).buckets.length
      ∧ ∀ f ∈ [DupField.groupStatus 5, .groupReferrers 5], OnlyLost f (lostField f tables) := by decide

theorem witness_ResolveTestAnswersByTheResolveRules :
    Free tables ∧ (resolution tables 5 0).1.verdict = .forward ∧ (resolution tables 4096 0).1.reason = .range
      ∧ (resolution tables 4095 0).1.reason = .unknownGroup ∧ (resolution damagedTables 5 0).1.reason = .damaged := by
  decide
theorem witness_EventFetchTakesTheCountedSources :
    EngineFree busyHost ∧ WalkerServed busyHost ∧ tableWf {} busyHost.nfu.sources = true ∧ 4 ≤ (4 : Byte).toNat
      ∧ (3 : Byte).toNat < 4 := by decide
theorem witness_EventConfigSetsARunOfSources :
    EngineFree busyHost ∧ WalkerServed busyHost ∧ 71 ≤ (71 : Byte).toNat ∧ (4 : Byte).toNat < (5 : Byte).toNat
      ∧ 2 ≤ (2 : Byte).toNat ∧ 4 ≤ (4 : Byte).toNat ∧ (0 : Byte).toNat ≤ (70 : Byte).toNat ∧ (70 : Byte).toNat < 71
      ∧ (1 : Byte).toNat < 2 ∧ (3 : Byte).toNat < 4 := by decide
theorem witness_AuditSetFollowsTheAuditState :
    EngineFree busyHost ∧ WalkerServed busyHost
      ∧ (let s : State := { State.reset with rwk := { audit := .waiting 9, auditInterval := some 1 } }
         EngineFree s ∧ WalkerServed s)
      ∧ (let s : State := granted .audit { State.reset with rwk := { audit := .pass } }
         EngineFree s ∧ WalkerServed s) := by decide
theorem witness_EvidenceWriteStoresClampedTimes :
    EngineFree busyHost ∧ WalkerServed busyHost ∧ 2 ≤ (2 : Byte).toNat ∧ 16 ≤ (16 : Byte).toNat ∧ 128 ≤ (128 : Byte).toNat
      ∧ (15 : Byte).toNat < 16 ∧ (127 : Byte).toNat < 128 := by decide
theorem witness_EvidenceAndMonitorReadsThenClear :
    Free (withMonitor 31 (bound .up) State.reset) ∧ 2 ≤ (2 : Byte).toNat ∧ 16 ≤ (16 : Byte).toNat
      ∧ 128 ≤ (128 : Byte).toNat ∧ (15 : Byte).toNat < 16 ∧ (127 : Byte).toNat < 128 ∧ 32 ≤ (32 : Byte).toNat
      ∧ (31 : Byte).toNat < 32 := by decide
theorem witness_MonitorRead_record_check :
    (∀ d ∈ [Damage.correctable, .uncorrectable], let s := damaged (.monitor 31) d (withMonitor 31 (bound .up) State.reset)
      EngineFree s ∧ WalkerServed s ∧ OnlyDamaged (.monitor 31) d s) ∧ (31 : Byte).toNat < 32 := by decide

/-! ### Witnesses: table commands -/

/-- `c` in execution with the table writer's grant, its response to be discarded or not. -/
def started (c : HostCmd) (discard : Bool) (s : State) : State :=
  { s with cme := { executing := some { tag := 7, cmd := c }, discard := discard }, twr := { s.twr with performing := some .engine } }

/-- A table command is performed from a free engine, and from execution whether its response is to be discarded or not. -/
theorem witness_TableStarted (c : HostCmd) :
    TableStarted 7 c tables ∧ (∀ b, TableStarted 7 c (started c b tables) ∧ Clean (started c b tables))
      ∧ ∀ b, (started c b tables).rck.tableFault = false :=
  ⟨Or.inl (by decide), fun _ => ⟨Or.inr ⟨rfl, rfl, rfl⟩, rfl, rfl⟩, fun _ => rfl⟩
theorem witness_TableStarted_served (b : Bool) : WalkerServed (started (.adjDelete 8191) b tables) := by
  revert b; decide

theorem witness_AdjacencyWriteAndDelete_refused :
    Ready tables ∧ 8192 ≤ (8192 : Half).toNat ∧ 128 ≤ (128 : Byte).toNat ∧ uplinkNamed 32 = false
      ∧ (1 : Half).toNat < 8192 ∧ (127 : Byte).toNat < 128 ∧ uplinkNamed 31 = true ∧ uplinkNamed 0xFF = true
      ∧ (tables.adj 1).refs ≠ 0 ∧ (tables.adj 1).status = .valid ∧ (tables.adj 1).uplink ≠ uplinkOf 0xFF
      ∧ (tables.adj 0).status = .invalid := by decide
theorem witness_AdjacencyWriteAndDelete_accepted :
    Ready tables ∧ (8191 : Half).toNat < 8192 ∧ (tables.adj 8191).refs = 0 ∧ (tables.adj 8191).status ≠ .invalid
      ∧ (tables.adj 1).status = .valid ∧ (tables.adj 1).uplink = uplinkOf 2 ∧ (tables.adj 1).refs ≠ 0 := by decide
theorem witness_AdjWriteRepairsADamagedAdjacency :
    Ready damagedAdj ∧ (1 : Half).toNat < 8192 ∧ (127 : Byte).toNat < 128 ∧ uplinkNamed 2 = true
      ∧ (damagedAdj.adj 1).status = .damaged ∧ (damagedAdj.adj 1).refs ≠ 0 ∧ damagedAdj.rck.dependencyPending = false
      ∧ (damagedAdj.group 5).status ≠ .notInstalled ∧ (∃ m ∈ (damagedAdj.group 5).members, m.adj = (1 : Half).toNat)
      ∧ (∀ h, h < 5 → (damagedAdj.group h).status = .notInstalled)
      ∧ (List.range 32).filter (fun u => decide (5 ∈ damagedAdj.depList u)) = [2]
      ∧ (List.range 32).filter (fun u => (damagedAdj.group 5).members.any (fun m => decide (m.adj ≠ (1 : Half).toNat)
          && decide ((damagedAdj.adj m.adj).status = .valid) && decide ((damagedAdj.adj m.adj).uplink = some u))) = []
      ∧ uplinkOf 2 = some 2 ∧ uplinkOf 0xFF = none := by decide
theorem witness_AdjWriteRepairs_pending :
    (let s : State := { damagedAdj with rck := { dependencyPending := true }, rwk := { work := .audit } }
     Ready s ∧ (s.adj 1).status = .damaged ∧ (s.adj 1).refs ≠ 0 ∧ s.rck.dependencyPending = true) := by decide
theorem witness_GroupWriteInstallsTheDealtAndSettledGroup :
    Ready tables ∧ (someGroupWrite 1).members.length ≤ 59 ∧ (someGroupWrite 59).members.length ≤ 59
      ∧ (tables.group (someGroupWrite 1).group.toNat).backup ≠ some (someGroupWrite 1).group.toNat
      ∧ groupWriteRefusal tables (someGroupWrite 1) = none
      ∧ groupWriteRefusal tables (someGroupWrite 17) = some .range
      ∧ groupWriteRefusal tables (someGroupWrite 2) = some .duplicateMember
      ∧ groupWriteRefusal tables { someGroupWrite 1 with group := 4096 } = some .range
      ∧ groupWriteRefusal tables { someGroupWrite 1 with backup := 4095 } = some .notInstalled
      ∧ groupWriteRefusal tables { someGroupWrite 1 with backup := 5 } = some .backupChain
      ∧ groupWriteRefusal damagedAdj (someGroupWrite 1) = some .damaged := by decide

/-- Reference counts that agree on the listed records agree everywhere. -/
theorem references_of_listed (s : State)
    (h1 : ∀ a, a ∉ s.adjs.map (·.1) → memberRecords s a = 0)
    (h2 : ∀ a ∈ s.adjs.map (·.1), (s.adj a).refs = memberRecords s a)
    (h3 : ∀ g, g ∉ s.groups.map (·.1) → referrerRecords s g = 0)
    (h4 : ∀ g ∈ s.groups.map (·.1), (s.group g).referrers = referrerRecords s g
      ∧ ((s.group g).status = .notInstalled → (s.group g).members = [] ∧ (s.group g).backup = none)
      ∧ ∀ b ∈ (s.group g).backup, b ≠ g ∧ (s.group b).backup = none) :
    ReferencesExact s := by
  have get {α : Type} (d : α) (t : Table α) (k : Nat) (h : k ∉ t.map (·.1)) : tableGet d t k = d := by
    induction t with
    | nil => rfl
    | cons e t ih =>
      simp only [List.map_cons, List.mem_cons, not_or] at h
      obtain ⟨k', v⟩ := e
      rw [tableGet, if_neg (fun hk => h.1 hk.symm)]
      exact ih h.2
  refine ⟨fun a => ?_, fun g => ?_, fun g => ?_, fun g b hb => ?_⟩
  · by_cases h : a ∈ s.adjs.map (·.1)
    · exact h2 a h
    · rw [h1 a h, State.adj, get _ _ _ h]
  · by_cases h : g ∈ s.groups.map (·.1)
    · exact (h4 g h).1
    · rw [h3 g h, State.group, get _ _ _ h]
  · by_cases h : g ∈ s.groups.map (·.1)
    · exact (h4 g h).2.1
    · rw [State.group, get _ _ _ h]; intro _; exact ⟨rfl, rfl⟩
  · by_cases h : g ∈ s.groups.map (·.1)
    · exact (h4 g h).2.2 b hb
    · rw [State.group, get _ _ _ h] at hb; cases hb

theorem tables_references : ReferencesExact tables := by
  refine references_of_listed tables (fun a h => ?_) (by decide) (fun g _ => ?_) (by decide)
  · have h' : ¬ (1 = a) ∧ ¬ (2 = a) := by
      constructor <;> · rintro rfl; exact h (by decide)
    simp [memberRecords, tables, group5, h']
  · simp [referrerRecords, tables, group5]

theorem witness_GroupWriteMovesCountsAndLists :
    Ready tables ∧ (someGroupWrite 1).members.length ≤ 59 ∧ Canonical tables ∧ ReferencesExact tables
      ∧ groupWriteRefusal tables (someGroupWrite 1) = none ∧ PoolExact tables :=
  ⟨by decide, by decide, by decide, tables_references, by decide, by decide⟩
theorem witness_GroupDeleteReleasesEverything :
    Ready tables ∧ Canonical tables ∧ ReferencesExact tables
      ∧ 4096 ≤ (4096 : Half).toNat ∧ (4095 : Half).toNat < 4096 ∧ (tables.group 4095).status = .notInstalled
      ∧ (tables.group 5).status ≠ .notInstalled ∧ (tables.group 5).referrers = 0
      ∧ tables.rck.dependencyPending = false ∧ PoolExact tables :=
  ⟨by decide, by decide, tables_references, by decide, by decide, by decide, by decide, by decide, by decide, by decide⟩

/-- `tables` with group 5 named as backup by group 4095. -/
def backedTables : State :=
  { tables with
    groups := [(5, { group5 with referrers := 1 }), (4095, { status := .damaged, backup := some 5 })] }

theorem backedTables_references : ReferencesExact backedTables := by
  refine references_of_listed backedTables (fun a h => ?_) (by decide) (fun g h => ?_) (by decide)
  · have h' : ¬ (1 = a) ∧ ¬ (2 = a) := by
      constructor <;> · rintro rfl; exact h (by decide)
    simp [memberRecords, backedTables, tables, group5, h']
  · have h' : ¬ (5 = g) := by rintro rfl; exact h (by decide)
    simp [referrerRecords, backedTables, group5, h']

theorem witness_GroupDelete_in_use :
    Ready backedTables ∧ Canonical backedTables ∧ ReferencesExact backedTables
      ∧ (backedTables.group 5).status ≠ .notInstalled ∧ (backedTables.group 5).referrers ≠ 0 :=
  ⟨by decide, by decide, backedTables_references, by decide, by decide⟩

/-- `tables` with a rebuild of the dependency index pending and table fault clear, behind a walker that has not woken. -/
def pendingTables : State := { tables with rck := { dependencyPending := true }, rwk := { work := .audit } }

theorem witness_GroupDelete_pending :
    Ready pendingTables ∧ Canonical pendingTables ∧ ReferencesExact pendingTables
      ∧ (pendingTables.group 5).status ≠ .notInstalled ∧ (pendingTables.group 5).referrers = 0
      ∧ pendingTables.rck.dependencyPending = true :=
  ⟨by decide, by decide, tables_references, by decide, by decide, by decide⟩
theorem witness_MemberSetStoresSettlesAndPublishes :
    Ready tables ∧ Ready damagedTables ∧ 4096 ≤ (4096 : Half).toNat ∧ (tables.group 4095).status = .notInstalled
      ∧ (damagedTables.group 5).status = .damaged ∧ (tables.group 5).status = .installed
      ∧ (tables.group 5).members.length ≤ (2 : Byte).toNat
      ∧ (tables.group 5).members[(1 : Byte).toNat]?
        = some { adj := 2, weight := 1, enabled := true, withdrawn := false, homeCount := 8 }
      ∧ true = decide ((1 : Byte) ≠ 0) ∧ true ≠ decide ((0 : Byte) ≠ 0) := by decide

theorem witness_MemberSet_lost_status :
    OnlyLost (.groupStatus 5) (lostField (.groupStatus 5) tables) ∧ EngineFree (lostField (.groupStatus 5) tables)
      ∧ WriterFree (lostField (.groupStatus 5) tables) ∧ WalkerServed (lostField (.groupStatus 5) tables)
      ∧ (lostField (.groupStatus 5) tables).rck.tableFault = false ∧ (5 : Half).toNat < 4096 := by decide

/-! ### Witnesses: the forwarding-side link -/

theorem witness_LinkTrainsAndFalls :
    WalkerServed State.reset ∧ State.reset.fsl.link = .down
      ∧ (let s : State := { State.reset with fsl := { link := .training } }
         WalkerServed s ∧ s.fsl.link = .training ∧ s.fsl.symbolLock = false)
      ∧ WalkerServed (linked 3 State.reset) ∧ (linked 3 State.reset).fsl.link = .active := by decide

/-- A link that can complete its training, with a held port and a monitor whose send timer runs. -/
def trained : State :=
  withPort 3 { holders := 1, suppression := .signalled }
    (withMonitor 31 { session .up with send := some 9 }
      { State.reset with fsl := { link := .training, symbolLock := true, sendingReady := true } })

theorem witness_TrainingCompleteOpensTheLink :
    trained.fsl.link = .training ∧ trained.fsl.symbolLock = true ∧ trained.fsl.transmit = [] ∧ Clean trained
      ∧ Canonical trained ∧ WalkerServed trained
      ∧ (List.range 32).filter (fun n => decide ((trained.mon n).state ≠ .disabled) && boundDown trained (trained.mon n)
        && !portWithheld trained n) = [] := by decide
/-- Two monitors bound to a port that stands DOWN see its entry return to UNKNOWN. -/
theorem witness_TrainingComplete_seen :
    (let s := withMonitor 30 { bound .up with portActive := true } (withPort 3 { entry := .down }
       (withMonitor 31 { bound .qualify with portActive := true }
         { State.reset with fsl := { link := .training, symbolLock := true, sendingReady := true } }))
     s.fsl.link = .training ∧ s.fsl.symbolLock = true ∧ s.fsl.transmit = [] ∧ Clean s ∧ Canonical s ∧ WalkerServed s
       ∧ (List.range 32).filter (fun n => decide ((s.mon n).state ≠ .disabled) && boundDown s (s.mon n)
         && !portWithheld s n) = [30, 31]) := by decide
/-- R101, R106: the record of the holder of P3 reads uncorrectable as it takes the change of P3's entry; it releases P3,
and the new activation carries the grant alone: no release, and no assert. -/
theorem test_activation_gives_no_release :
    (let s := damaged (.monitor 31) .uncorrectable
       (withMonitor 31 { bound .down with cfg := { signal := true, echoPort := false }, portActive := true }
         (withPort 3 { entry := .down, holders := 1, suppression := .signalled }
           { State.reset with fsl := { link := .training, symbolLock := true, sendingReady := true } }))
     let t := enterActive s
     (s.mon 31).active.port = some 3 ∧ (t.port 3).holders = 0 ∧ (t.mon 31).damaged = true
       ∧ t.fsl.transmit = [.credit 64]) := by decide
theorem witness_ResolveReqQueuesTheDerivedAnswer :
    Quiet (linked 0 tables) ∧ Quiet (linked 1 tables) ∧ (linked 0 tables).fsl.link = .active
      ∧ (linked 0 tables).fsl.credits = 0 ∧ (linked 1 tables).fsl.credits ≠ 0 ∧ tables.fsl.link ≠ .active
      ∧ Quiet tables := by decide
theorem witness_BadMessageIsDiscardedAndCounted :
    WalkerServed (linked 0 tables) ∧ (linked 0 tables).fsl.credits = 0 ∧ (linked 1 tables).fsl.credits ≠ 0
      ∧ (linked 1 tables).fsl.link = .active ∧ State.reset.fsl.link ≠ .active
      ∧ (let f : Fsl := { link := .active, consecutiveBad := 6 }
         f.consecutiveBad + 1 < 8)
      ∧ (let f : Fsl := { link := .active, consecutiveBad := 7 }
         8 ≤ f.consecutiveBad + 1) := by decide

/-- Monitor 31 on P3, whose entry and suppression are given. -/
def onP3 (m : Monitor) (q : Port) : State := linked 1 (withPort 3 q (withMonitor 31 m State.reset))

theorem witness_PortNotice_counted :
    Quiet (onP3 (bound .up) {}) ∧ 128 ≤ (128 : Byte).toNat ∧ (4 : Byte).toNat ∉ [1, 2, 3] ∧ (0 : Byte).toNat ∉ [1, 2, 3]
      ∧ (127 : Byte).toNat < 128 ∧ onPort (onP3 (bound .up) {}) 127 = [] := by decide
theorem witness_PortNotice_taken :
    Quiet (onP3 (bound .up) {}) ∧ (3 : Byte).toNat < 128 ∧ onPort (onP3 (bound .up) {}) 3 = [31]
      ∧ unsuppressed (onP3 (bound .up) {}) (bound .up) ∧ ((onP3 (bound .up) {}).mon 31).state = .up
      ∧ onPort (onP3 (bound .qualify) {}) 3 = [31] ∧ unsuppressed (onP3 (bound .qualify) {}) (bound .qualify) := by
  refine ⟨by decide, by decide, by decide, ?_, by decide, by decide, ?_⟩ <;>
    · intro p h; cases h; decide
theorem witness_PortNotice_withheld :
    Quiet (onP3 (bound .up) { suppression := .guard 9 }) ∧ onPort (onP3 (bound .up) { suppression := .guard 9 }) 3 = [31]
      ∧ (bound .up).cfg.echoPort = true ∧ suppressedFor (onP3 (bound .up) { suppression := .guard 9 }) (bound .up) :=
  ⟨by decide, by decide, by decide, 3, rfl, by decide⟩

/-- The monitor an arrival for P3 selects. -/
abbrev agreesWith (m : Monitor) (mine : Half) : Prop :=
  (List.range 16).all (fun k => !m.active.matchMask.getLsbD k
    || decide (mine.getLsbD k = m.active.remoteDisc.getLsbD k)) = true

theorem witness_ProbeArrival_stray :
    Quiet (onP3 (session .up) {}) ∧ (onP3 (session .up) {}).fsl.link = .active ∧ 128 ≤ (128 : Byte).toNat
      ∧ ¬ agreesWith (session .up) 35
      ∧ (List.range 32).find? (fun n => decide (((onP3 (session .up) {}).mon n).active.localDisc = 18)) = none := by
  decide
theorem witness_ProbeArrival_accepted :
    (∀ st ∈ [MonState.qualify, .up, .suspect, .down],
      Quiet (onP3 (session st) {}) ∧ (onP3 (session st) {}).fsl.link = .active
        ∧ (List.range 32).find? (fun n => decide (((onP3 (session st) {}).mon n).active.localDisc = 17)) = some 31
        ∧ ((onP3 (session st) {}).mon 31).state ≠ .disabled
        ∧ ((onP3 (session st) {}).mon 31).active.session = true ∧ agreesWith (session st) 34
        ∧ ((onP3 (session st) {}).mon 31).active.port = some (3 : Byte).toNat)
      ∧ (3 : Byte).toNat < 128 ∧ (34 : Half) ≠ 0 ∧ (17 : Half) ≠ 0 := by decide
theorem witness_ProbeArrival_unaddressed :
    (List.range 32).find? (fun n => ((onP3 (session .qualify) {}).mon n).active.session
      && decide (((onP3 (session .qualify) {}).mon n).active.port = some (3 : Byte).toNat)
      && (List.range 16).all (fun k => !((onP3 (session .qualify) {}).mon n).active.matchMask.getLsbD k
        || decide ((34 : Half).getLsbD k = ((onP3 (session .qualify) {}).mon n).active.remoteDisc.getLsbD k)))
      = some 31 := by decide
theorem witness_ProbeArrival_qualifies :
    (let m := { session .qualify with qualCount := 2 }
     m.cfg.qualifyCount ≤ min (m.qualCount + 1) 15 ∧ downCause false m = none ∧ m.confidence < m.cfg.suspectAt
       ∧ m.cfg.suspectAt < m.cfg.downAt)
      ∧ (let m := { session .qualify with qualCount := 1 }
         min (m.qualCount + 1) 15 < m.cfg.qualifyCount) := by decide

/-- A queued answer. -/
def queuedAnswer : Answer := { tag := 3, content := (resolution tables 5 0).1 }

/-- Both sources of the transmitter wait. -/
def bothWait (last : TxSource) : State :=
  { linked 3 State.reset with
    rsu := { answers := [queuedAnswer] }
    fsl := { link := .active, credits := 3, transmit := [.credit 60], lastServed := last } }

theorem witness_TransmitterAlternatesAndReturnsCredits :
    (linked 3 State.reset).fsl.link = .active ∧ (linked 3 State.reset).rsu.answers = []
      ∧ (linked 3 State.reset).fsl.transmit = []
      ∧ (∀ last, (bothWait last).fsl.link = .active ∧ (bothWait last).rsu.answers = queuedAnswer :: []
        ∧ (bothWait last).fsl.transmit = .credit 60 :: [] ∧ (bothWait last).fsl.lastServed = last) :=
  ⟨by decide, by decide, by decide, fun _ => ⟨rfl, rfl, rfl, rfl⟩⟩

/-! ### Witnesses: lines and timers -/

/-- Monitor 31 on LOS1, whose filter is given. -/
def onLos1 (m : Monitor) (x : Line) : State := withLine 1 x (withMonitor 31 m State.reset)

theorem witness_LosRawChange_rows :
    Quiet (onLos1 (bound .up) {}) ∧ ((onLos1 (bound .up) {}).line 1).raw = false
      ∧ (onLos1 (bound .up) {}).line 1 = {} ∧ ({} : Line).assertFilter ≠ 0
      ∧ (let x : Line := { raw := true, timer := .towardAssert 100 }
         (onLos1 (bound .up) x).line 1 = x)
      ∧ (let x : Line := { raw := true, filtered := true }
         (onLos1 (bound .up) x).line 1 = x)
      ∧ (let x : Line := { raw := false, filtered := true, timer := .towardClear 100 }
         (onLos1 (bound .up) x).line 1 = x) := by decide
theorem witness_LosRawChange_at_once :
    Quiet (onLos1 (bound .up) { assertFilter := 0 }) ∧ onLine (onLos1 (bound .up) { assertFilter := 0 }) 1 = [31]
      ∧ onLine (onLos1 (bound .disabled) { assertFilter := 0 }) 1 = []
      ∧ unsuppressed (onLos1 (bound .up) { assertFilter := 0 }) (bound .up) :=
  ⟨by decide, by decide, by decide, by intro p h; cases h; decide⟩
theorem witness_LosFilterExpiryDeliversTheChange :
    (let s := onLos1 (bound .up) { raw := true, timer := .towardAssert 100 }
     Quiet s ∧ (s.line 1).timer = .towardAssert 100 ∧ onLine s 1 = [31] ∧ unsuppressed s (s.mon 31))
      ∧ (let s := onLos1 (bound .disabled) { filtered := true, timer := .towardClear 100 }
         Quiet s ∧ (s.line 1).timer = .towardClear 100 ∧ onLine s 1 = [])
      ∧ (let s := withPort 3 { suppression := .signalled, holders := 1 } (onLos1 (bound .up) { timer := .towardAssert 0 })
         Quiet s ∧ onLine s 1 = [31] ∧ (s.mon 31).cfg.echoLos = true ∧ (s.mon 31).active.port = some 3
           ∧ (s.port 3).suppression ≠ .clear)
      ∧ ((State.reset).line 15).timer = .stopped := by
  refine ⟨⟨by decide, by decide, by decide, ?_⟩, by decide, by decide, by decide⟩
  intro p h; cases h; decide
theorem witness_QualifyExpiryEntersService :
    (let s := onLos1 { bound .qualify with qualify := some 100000 } {}
     Quiet s ∧ (s.mon 31).qualify = some 100000 ∧ (s.mon 31).state = .qualify ∧ (s.mon 31).active.session = false
       ∧ (s.mon 0).qualify = none) := by decide

/-- Monitor 31 in DOWN with its hold-down running to 50 ms. -/
def inDown (m : Monitor) : State :=
  onP3 { m with state := .down, hold := .running 50000 } { holders := 1, suppression := .signalled }

theorem witness_HoldDown_held :
    (let s := inDown { bound .down with hostActive := true }
     Quiet s ∧ (s.mon 31).hold = .running 50000 ∧ (s.mon 31).state = .down ∧ downCause false (s.mon 31) ≠ none
       ∧ (s.mon 0).hold = .stopped) := by decide
theorem witness_HoldDown_leaves :
    (let s := inDown { session .down with cfg := { signal := true } }
     Quiet s ∧ (s.mon 31).hold = .running 50000 ∧ (s.mon 31).state = .down ∧ downCause false (s.mon 31) = none
       ∧ releaseClears s (holds (s.mon 31)) = false) := by decide
/-- The last holder of a port without guard time leaves DOWN under a pending binding, with another monitor suppressed. -/
theorem witness_HoldDown_clears_its_port :
    (let s := withMonitor 30 (bound .up) (withPort 3 { holders := 1, suppression := .signalled, guardTime := 0 }
       (withMonitor 31 { bound .down with
           cfg := { signal := true }, hold := .running 50000, pending := some { port := some 127 } } State.reset))
     Quiet s ∧ (s.mon 31).hold = .running 50000 ∧ (s.mon 31).state = .down ∧ downCause false (s.mon 31) = none
       ∧ releaseClears s (holds (s.mon 31)) = true ∧ (endTakers s 3).filter (fun k => decide (k ≠ 31)) = [30]) := by
  decide
theorem witness_SessionTimersRestartAndAct :
    (let s := onP3 { session .up with arrival := some 10000, send := some 10000 } {}
     Quiet s ∧ (s.mon 31).arrival = some 10000 ∧ (s.mon 31).send = some 10000 ∧ probing (s.mon 31) = true
       ∧ (s.mon 31).decay = none ∧ (s.mon 0).arrival = none ∧ (s.mon 0).send = none)
      ∧ (let s := onP3 { bound .suspect with decay := some 100000 } {}
         Quiet s ∧ (s.mon 31).decay = some 100000) := by decide
theorem witness_GuardExpiryEndsSuppression :
    (let s := onP3 (bound .qualify) { suppression := .guard 70000 }
     Quiet s ∧ (s.port 3).suppression = .guard 70000 ∧ onPort s 3 = [31] ∧ (s.mon 31).cfg.echoLos = true
       ∧ (s.port 127).suppression = .clear)
      ∧ (let s := onP3 { bound .up with cfg := { echoLos := false, echoPort := false } } { suppression := .guard 70000 }
         ∀ n ∈ onPort s 3, (s.mon n).cfg.echoLos = false ∧ (s.mon n).cfg.echoPort = false)
      ∧ (let s := onP3 (bound .up) { holders := 1, suppression := .signalled }
         (s.port 3).suppression = .signalled) := by decide

/-! ### Witnesses: monitor commands -/

/-- A write of monitor `n` with a session. -/
def someWrite (n los port : Byte) (disc : Half) : MonitorArgs :=
  { monitor := n, losLine := los, boundPort := port, session := 1, localDisc := disc, remoteDisc := 34, matchMask := 0,
    losReaction := 3, portReaction := 3, peerReaction := 3, latchMode := 1, echoLos := 1, echoPort := 1, drain := 0,
    signal := 1, priority := 9, holdBase := 0, flapWindow := 0, qualifyTime := 0, txInterval := 0, minRx := 0,
    qualifyCount := 0, missWeight := 0, errorWeight := 0, recoveryStep := 0, downAt := 10, suspectAt := 12, clearAt := 12 }

theorem witness_MonitorWrite_refused :
    Free (onP3 (session .up) {}) ∧ 32 ≤ (someWrite 32 0 0 1).monitor.toNat
      ∧ ¬ ((someWrite 0 16 0 1).losLine = 255 ∨ (someWrite 0 16 0 1).losLine.toNat < 16)
      ∧ ¬ ((someWrite 0 0 128 1).boundPort = 255 ∨ (someWrite 0 0 128 1).boundPort.toNat < 128)
      ∧ (someWrite 0 0 0 0).localDisc = 0 ∧ (someWrite 0 0 0 17).session ≠ 0
      ∧ ((onP3 (session .up) {}).mon 31).active.localDisc = (someWrite 0 0 0 17).localDisc := by decide
theorem witness_MonitorWrite_accepted :
    (∀ st ∈ [MonState.disabled, .qualify, .up, .suspect, .down], Free (onP3 (session st) {})
        ∧ ((onP3 (session st) {}).mon 31).state = st)
      ∧ (let a := someWrite 31 15 127 18
         a.monitor.toNat < 32 ∧ a.losLine.toNat < 16 ∧ a.boundPort.toNat < 128 ∧ a.losReaction.toNat < 4
           ∧ a.portReaction.toNat < 4 ∧ a.peerReaction.toNat < 4 ∧ a.latchMode.toNat < 2 ∧ a.localDisc ≠ 0
           ∧ ∀ k, k < 32 → k ≠ 31 → ((onP3 (session .up) {}).mon k).active.localDisc ≠ a.localDisc
             ∧ ((onP3 (session .up) {}).mon k).pending = none) := by decide
/-- Writes in service, one in DOWN that ends suppression and releases its port to CLEAR before another monitor bound to
it, and one in QUALIFY under another binding. -/
theorem witness_MonitorWrite_effects :
    (∀ st ∈ [MonState.up, .suspect, .down], ((onP3 (session st) {}).mon 31).state ≠ .disabled
        ∧ ((onP3 (session st) {}).mon 31).state ≠ .qualify)
      ∧ (let s := withMonitor 30 (bound .up)
           (onP3 { bound .down with cfg := { signal := true } } { holders := 1, suppression := .signalled, guardTime := 0 })
         Free s ∧ portSuppresses s (s.mon 31) = true ∧ releaseClears s (holds (s.mon 31)) = true
           ∧ (endTakers s 3).filter (fun k => decide (k ≠ 31)) = [30])
      ∧ ({ los := some 15, port := some 127, session := true, localDisc := 18, remoteDisc := 34 } : Binding)
        ≠ ((onP3 (session .qualify) {}).mon 31).active := by decide
theorem witness_EnableEntersQualify :
    (let s := onP3 (session .disabled) {}
     Free s ∧ (31 : Byte).toNat < 32 ∧ 32 ≤ (32 : Byte).toNat ∧ (s.mon 31).damaged = false
       ∧ (s.mon 31).state = .disabled)
      ∧ (let s := onP3 { bound .disabled with damaged := true } {}
         Free s ∧ (s.mon 31).damaged = true)
      ∧ (let s := onP3 (bound .up) {}
         Free s ∧ (s.mon 31).damaged = false ∧ (s.mon 31).state ≠ .disabled) := by decide
/-- R97: a latch that a write in DISABLED set stands through ENABLE when its line has cleared since. -/
theorem test_enable_keeps_a_set_latch :
    (let m : Monitor := { active := { los := some 2 }, cfg := { latchMode := .latch, losReaction := .notify }, latch := true }
     let s := withMonitor 31 m State.reset
     let t := (performEnable 31 s).state
     (s.line 2).filtered = false ∧ (t.mon 31).latch = true ∧ (t.mon 31).losActive = true) := by decide
theorem witness_DisableStopsTheMonitor :
    (let s := onP3 (session .up) {}
     Free s ∧ (31 : Byte).toNat < 32 ∧ 32 ≤ (32 : Byte).toNat) := by decide
theorem witness_HostEvidence_refused :
    Free (onP3 { bound .down with damaged := true } {}) ∧ Free (onP3 (bound .disabled) {}) ∧ 32 ≤ (32 : Byte).toNat
      ∧ (31 : Byte).toNat < 32 ∧ ((onP3 { bound .down with damaged := true } {}).mon 31).damaged = true
      ∧ ((onP3 (bound .disabled) {}).mon 31).state = .disabled := by decide
theorem witness_HostEvidence_taken :
    (∀ v ∈ [true, false], Free (onP3 { bound .down with hostActive := v } {})
      ∧ ((onP3 { bound .down with hostActive := v } {}).mon 31).hostActive = v
      ∧ ((onP3 { bound .down with hostActive := v } {}).mon 31).damaged = false
      ∧ ((onP3 { bound .down with hostActive := v } {}).mon 31).state ≠ .disabled) := by decide

/-- Monitor 31 in LATCH mode with its latch set, its line's filter given. -/
def latchSet (st : MonState) (filtered : Bool) : State :=
  onLos1 { bound st with cfg := { latchMode := .latch }, latch := true, losActive := true } { filtered := filtered }

theorem witness_ClearLatch :
    Free (latchSet .up true) ∧ boundFiltered (latchSet .up true) ((latchSet .up true).mon 31) = true
      ∧ Free (latchSet .up false) ∧ boundFiltered (latchSet .up false) ((latchSet .up false).mon 31) = false
      ∧ ((latchSet .up false).mon 31).cfg.latchMode = .latch ∧ ((latchSet .up false).mon 31).latch = true
      ∧ ((latchSet .disabled false).mon 31).state = .disabled ∧ Free (latchSet .disabled false)
      ∧ ((latchSet .up false).mon 0).latch = false ∧ ((latchSet .up false).mon 31).state ≠ .disabled
      ∧ unsuppressed (latchSet .up false) ((latchSet .up false).mon 31) := by
  refine ⟨by decide, by decide, by decide, by decide, by decide, by decide, by decide, by decide, by decide, by decide, ?_⟩
  intro p h; cases h; decide

/-! ### Witnesses: walker steps -/

theorem witness_JobStepSettlesTheNextGroup :
    (∀ j ∈ [({} : Job), { cursor := some 5 }, { restart := true }].map (fun j => { j with inProgress := true }),
      StepGranted (.job 2) (jobOn j tables) ∧ (jobOn j tables).job 2 = some j ∧ jobsInProgress (jobOn j tables) = [2]
        ∧ Clean (jobOn j tables) ∧ Canonical (jobOn j tables))
      ∧ jobFinds (jobOn { inProgress := true } tables) 2 none = some 5
      ∧ jobFinds (jobOn { inProgress := true, cursor := some 5 } tables) 2 (some 5) = none
      ∧ jobFinds (jobOn { inProgress := true } pendingTables) 2 none = some 5 ∧ (2 : Nat) < 32 := by decide
theorem witness_JobStep_bad_entry :
    (let s := damaged (.entry 2 5) .uncorrectable (jobOn { inProgress := true } tables)
     StepGranted (.job 2) s ∧ s.job 2 = some { inProgress := true } ∧ jobsInProgress s = [2] ∧ Canonical s
       ∧ s.rck.dependencyPending = false ∧ jobFinds s 2 none = some 5 ∧ OnlyDamaged (.entry 2 5) .uncorrectable s) := by
  decide
theorem witness_DependencyRebuild_fits :
    StepGranted .dependencyRebuild (granted .dependencyRebuild pendingTables)
      ∧ Clean (granted .dependencyRebuild pendingTables) ∧ Canonical (granted .dependencyRebuild pendingTables)
      ∧ ((List.range 32).map (fun u =>
          (pendingTables.groups.filter (fun e => decide (e.2.status ≠ .notInstalled)
            && e.2.members.any (fun m => decide ((pendingTables.adj m.adj).status = .valid)
              && decide ((pendingTables.adj m.adj).uplink = some u)))).length)).sum ≤ 16384 := by decide
/-- A group with a member on each of 16 adjacencies. -/
def wideGroup : Group :=
  { status := .installed
    members := (List.range 16).map (fun a =>
      { adj := a, weight := 1, enabled := true, withdrawn := false, homeCount := 1 }) }

/-- 1025 groups that each have a member on each of 16 uplinks. -/
def crowded : State :=
  granted .dependencyRebuild { State.reset with
    adjs := (List.range 16).map (fun a => (a, { status := .valid, uplink := some a, refs := 1025 }))
    groups := (List.range 1025).map (fun g => (g, wideGroup))
    rck := { dependencyPending := true } }

theorem table_of_rising (v : Group) (hv : v ≠ {}) (l : List Nat) (h : l.Pairwise (· < ·)) :
    tableWf {} (l.map (fun g => (g, v))) = true := by
  induction l with
  | nil => rfl
  | cons g l ih =>
    rw [List.pairwise_cons] at h
    simp only [List.map_cons, tableWf, Bool.and_eq_true, decide_eq_true_eq, List.all_eq_true]
    refine ⟨⟨hv, fun e he => ?_⟩, ih h.2⟩
    obtain ⟨k, hk, rfl⟩ := List.mem_map.mp he
    exact h.1 k hk

theorem crowded_wf : tableWf {} crowded.groups = true := by
  simpa only [crowded, granted] using table_of_rising wideGroup (by decide) (List.range 1025) List.pairwise_lt_range

theorem witness_DependencyRebuild_does_not_fit :
    StepGranted .dependencyRebuild crowded ∧ Clean crowded ∧ Canonical crowded
      ∧ 16384 < ((List.range 32).map (fun u =>
          (crowded.groups.filter (fun e => decide (e.2.status ≠ .notInstalled)
            && e.2.members.any (fun m => decide ((crowded.adj m.adj).status = .valid)
              && decide ((crowded.adj m.adj).uplink = some u)))).length)).sum := by
  refine ⟨by decide, by decide, ⟨crowded_wf,
    by decide, by decide, by decide, by decide, by decide, by decide, by decide, by decide, by decide, by decide,
    by decide⟩, ?_⟩
  have named : ∀ u, u < 16 → (wideGroup.members.any (fun m => decide ((crowded.adj m.adj).status = .valid)
      && decide ((crowded.adj m.adj).uplink = some u))) = true := by decide
  have each : ∀ u, u < 16 → (crowded.groups.filter (fun e => decide (e.2.status ≠ .notInstalled)
      && e.2.members.any (fun m => decide ((crowded.adj m.adj).status = .valid)
        && decide ((crowded.adj m.adj).uplink = some u)))).length = 1025 := by
    intro u hu
    rw [List.filter_eq_self.mpr]
    · simp only [crowded, granted, List.length_map, List.length_range]
    · intro e he
      simp only [crowded, granted] at he
      obtain ⟨g, -, rfl⟩ := List.mem_map.mp he
      exact Bool.and_eq_true_iff.mpr ⟨rfl, named u hu⟩
  have split : List.range 32 = List.range 16 ++ (List.range 16).map (16 + ·) := by decide
  rw [split, List.map_append, List.sum_append_nat,
    List.map_congr_left (g := fun _ => 1025) (fun u hu => each u (List.mem_range.mp hu))]
  refine Nat.lt_of_lt_of_le ?_ (Nat.le_add_right _ _)
  decide

theorem witness_RebuildStepDealsTheLowestGroup :
    (∀ l ∈ [[], [5, 6], [4095]], let s := granted .rebuild { tables with rck := { rebuildList := l } }
      StepGranted .rebuild s ∧ Clean s ∧ Canonical s)
      ∧ (tables.group 5).status = .installed ∧ (tables.group 4095).status ≠ .installed := by decide
theorem witness_AuditStepsSettleInTurn :
    (∀ c ∈ [none, some 5], let s := granted .audit { tables with rwk := { audit := .pass, auditCursor := c } }
      StepGranted .audit s ∧ s.rwk.audit = .pass ∧ Clean s ∧ Canonical s)
      ∧ installedAbove tables none = some 5 ∧ installedAbove tables (some 5) = none
      ∧ (let s : State := { tables with rwk := { audit := .waiting 9, auditInterval := some 1 } }
         s.rwk.audit = .waiting 9 ∧ WalkerServed s ∧ s.rwk.work = .idle ∧ s.rwk.inFlight = false)
      ∧ WalkerServed tables := by decide
/-- An audit step after AUDIT_SET turned the pass off, and one that reads a damaged second copy. -/
theorem witness_AuditStep_off_and_copies :
    (let s := granted .audit { tables with rwk := { audit := .off } }
     StepGranted .audit s ∧ s.rwk.audit ≠ .pass ∧ Clean s ∧ Canonical s ∧ jobsInProgress s = []
       ∧ installedAbove s none = some 5)
      ∧ ∀ f ∈ [DupField.groupBackup 5, .memberLink 5 1, .adjStatus 1, .adjRefs 2],
        let s := damaged (.copy f true) .uncorrectable (granted .audit { tables with rwk := { audit := .pass } })
        StepGranted .audit s ∧ Canonical s ∧ installedAbove s s.rwk.auditCursor = some 5 ∧ jobsInProgress s = []
          ∧ OnlyDamaged (.copy f true) .uncorrectable s ∧ (s.group 5).members.map (·.adj) = [1, 2] := by decide
theorem witness_AuditTimer_not_waiting : ∀ e, tables.rwk.audit ≠ .waiting e := by
  intro e h; cases h

/-- Group 5 without a live member, its backup group 6 with one, and both copies of group 6's own backup field bad. -/
def badBackupField : State :=
  lostField (.groupBackup 6) { tables with
    groups := [(5, { group5 with backup := some 6, members := group5.members.map (fun m => { m with enabled := false }) }),
               (6, { group5 with referrers := 1 })] }

/-- R53: the backup's own backup field is not read, so the request is answered FORWARD from it and nothing is found. -/
theorem test_backup_field_of_backup_not_read :
    (derive 5 0 badBackupField).1.content.verdict = .forward ∧ (derive 5 0 badBackupField).1.content.backup = true
      ∧ (derive 5 0 badBackupField).2 = badBackupField := by decide

/-! ### Witnesses: dealing, settling, whole-machine rules -/

theorem witness_LargestRemainderShares :
    ([255, 1] : List Nat) ≠ [] ∧ (List.replicate 16 255).length ≤ 16 ∧ ∀ w ∈ ([255, 1] : List Nat), 1 ≤ w ∧ w ≤ 255 := by
  decide
theorem witness_EveryMemberHoldsABucket :
    (16 : Nat) ≤ ([16, 0] : List Nat).sum ∧ ([16, 0] : List Nat).getD 1 0 = 0 ∧ ([16, 0] : List Nat).getD 0 0 ≠ 0
      ∧ ([16, 0] : List Nat).length ≤ 16 ∧ ([7] : List Nat) ≠ [] ∧ ∀ w ∈ ([7] : List Nat), 1 ≤ w := by decide
/-- `tables` with a second group dealt as group 5. -/
def twins : State := { tables with groups := [(5, group5), (6, { group5 with offset := 3, revision := 9 })] }

theorem witness_SettleIsIdempotent :
    Clean tables ∧ (settleStep false 5 tables).group 5 = group5 ∧ Clean twins
      ∧ (∀ g ∈ [5, 6], (twins.group g).status = .installed ∧ liveList twins (twins.group g).members ≠ []
        ∧ (twins.group g).buckets.map (·.home) = placement (twins.group g).stripe
            (homeCounts ((twins.group g).members.map (·.weight)) (twins.group g).bucketCount.size)
        ∧ (twins.group g).bucketCount = group5.bucketCount ∧ (twins.group g).stripe = group5.stripe
        ∧ (twins.group g).members = group5.members) := by decide
theorem witness_ForwardAnswersNameALiveAdjacency :
    (linked 1 tables).fsl.link = .active ∧ (linked 1 tables).fsl.credits ≠ 0
      ∧ (match exec (.resolveReq 3 5 0) (linked 1 tables) with
        | .next t => decide (t.rsu.answers = (linked 1 tables).rsu.answers ++ [queuedAnswer])
        | _ => false) = true
      ∧ queuedAnswer.content.verdict = .forward := by decide
theorem witness_QueuedAnswersAreNotRevised : exec .rppReset tables = .next { tables with nfu := { sources := [] } } := rfl
theorem witness_TablesMoveOnlyAtTheTableWriter :
    Clean tables ∧ exec .rppReset tables = .next { tables with nfu := { sources := [] } } :=
  ⟨by decide, rfl⟩
theorem witness_DisabledMonitorsStayDisabled :
    exec .lossOfLock tables = .next tables ∧ (tables.mon 31).state = .disabled
      ∧ mayTake .commandTake (oneWaiting [0x32, 0, 0, 7, 0, 1, 31]) [0x32, 0, 0, 7, 0, 1, 31]
      ∧ parseRecord [0x32, 0, 0, 7, 0, 1, 31] = .ok (.enable 31) ∧ (31 : Byte).toNat = 31 :=
  ⟨rfl, by decide, ⟨rfl, .inl (by decide)⟩, by decide, by decide⟩

/-! ### Witnesses: invariants -/

/-- `tables` with a command in front. -/
def tablesWith (i : Instr) : State := { tables with pending := [i] }

theorem witness_StepKeepsTablesCanonical :
    Canonical (tablesWith .lossOfLock) ∧ step (tablesWith .lossOfLock) = .next tables := ⟨by decide, rfl⟩
theorem witness_StepKeepsCountsExact :
    (Canonical (tablesWith .lossOfLock) ∧ PoolExact (tablesWith .lossOfLock)
      ∧ ReferencesExact (tablesWith .lossOfLock)) ∧ step (tablesWith .lossOfLock) = .next tables :=
  ⟨⟨by decide, by decide, tables_references⟩, rfl⟩
theorem witness_StepKeepsCreditsBalanced :
    CreditsBalanced (tablesWith .lossOfLock) ∧ step (tablesWith .lossOfLock) = .next tables
      ∧ CreditsBalanced (linked 64 tables) := ⟨by decide, rfl, by decide⟩
theorem tables_engine : EngineConsistent (tablesWith .lossOfLock) :=
  ⟨by decide, by decide, by decide, by decide, by decide, by intro e h; cases h⟩
theorem tables_writer : WriterConsistent (tablesWith .lossOfLock) :=
  ⟨by decide, by decide, by decide, by decide, by decide, by decide⟩
theorem witness_StepKeepsTheEnginesConsistent :
    (EngineConsistent (tablesWith .lossOfLock) ∧ WriterConsistent (tablesWith .lossOfLock))
      ∧ step (tablesWith .lossOfLock) = .next tables := ⟨⟨tables_engine, tables_writer⟩, rfl⟩

/-- Monitor 31 holds P3. -/
def holding : State :=
  { onP3 { bound .down with cfg := { signal := true }, hold := .held } { holders := 1, suppression := .signalled } with
    pending := [.symbolLock] }

theorem holding_exact : HoldersExact holding := by
  intro p
  have hm : ∀ n, holds (holding.mon n) = if n = 31 then some 3 else none := by
    intro n
    by_cases h : n = 31
    · subst h; decide
    · have : holding.mon n = {} := by
        show tableGet ({} : Monitor) [(31, _)] n = ({} : Monitor)
        simp [tableGet, Ne.symm h]
      rw [this, if_neg h]; rfl
  by_cases h : p = 3
  · subst h
    simp only [hm]
    decide
  · have hp : holding.port p = {} := by
      show tableGet ({} : Port) [(3, _)] p = ({} : Port)
      simp [tableGet, Ne.symm h]
    rw [hp]
    refine ⟨?_, by decide⟩
    have : (List.range 32).filter (fun n => decide (holds (holding.mon n) = some p)) = [] := by
      rw [List.filter_eq_nil_iff]
      intro n _
      rw [hm]
      split <;> simp [Ne.symm h]
    rw [this]; rfl
theorem witness_StepKeepsHoldersExact :
    (Canonical holding ∧ HoldersExact holding) ∧ step holding = .next { holding with pending := [] } :=
  ⟨⟨by decide, holding_exact⟩, rfl⟩

theorem tables_lists : ∀ u, u < 32 → ∀ g, g ∈ tables.depList u ↔ (tables.group g).status ≠ .notInstalled
    ∧ ∃ m ∈ (tables.group g).members, (tables.adj m.adj).status = .valid ∧ (tables.adj m.adj).uplink = some u := by
  intro u _ g
  by_cases hg : g = 5
  · subst hg
    by_cases hu : u = 2
    · subst hu; decide
    · have : tables.depList u = [] := by
        show tableGet [] [(2, _)] u = []
        simp [tableGet, Ne.symm hu]
      rw [this]
      simp [State.group, State.adj, tables, group5, tableGet, Ne.symm hu]
  · have h1 : tables.group g = {} := by
      show tableGet ({} : Group) [(5, _)] g = ({} : Group)
      simp [tableGet, Ne.symm hg]
    rw [h1]
    by_cases hu : u = 2
    · subst hu
      show g ∈ [5] ↔ _
      simp [hg]
    · have : tables.depList u = [] := by
        show tableGet [] [(2, _)] u = []
        simp [tableGet, Ne.symm hu]
      simp [this]
theorem tables_valid : ∀ a, (tables.adj a).refs ≠ 0 → (tables.adj a).status = .valid := by
  intro a
  by_cases h1 : a = 1
  · subst h1; decide
  by_cases h2 : a = 2
  · subst h2; decide
  by_cases h3 : a = 3
  · subst h3; decide
  by_cases h4 : a = 8191
  · subst h4; decide
  · have : tables.adj a = {} := by
      simp [State.adj, tables, tableGet, Ne.symm h1, Ne.symm h2, Ne.symm h3, Ne.symm h4]
    rw [this]; intro h; exact absurd rfl h
theorem witness_StepKeepsDependencyListsExact :
    IndexExact (tablesWith .lossOfLock) ∧ step (tablesWith .lossOfLock) = .next tables :=
  ⟨⟨by decide, by decide, tables_references, tables_valid, by decide, tables_lists⟩, rfl⟩

end Sys2Proof.Tests
end

namespace Sys2Proof.Machine

open Sys2Proof

/-! ### The row of a table command (R145, R164, R166, R168) -/

/-- The part while the table writer performs `c` for the engine: `c` in execution, and a run count that the start of an
engine operation has cleared unless the operation had started before. -/
def underway (tag : Half) (c : HostCmd) (s : State) : State :=
  { s with
    cme := { s.cme with executing := some { tag := tag, cmd := c } }
    twr := { s.twr with
      performing := some .engine
      runCount := if s.cme.executing.isSome then s.twr.runCount else 0 } }

/-- A taken table command that finds the table writer free is under way. -/
theorem takeCommand_free (tag : Half) {c : HostCmd} {s : State} (hc : isTable c = true)
    (hf : s.rck.tableFault = false) (he : s.cme.executing = none) (hp : s.twr.performing = none) :
    takeCommand tag c s = underway tag c s := by
  simp [takeCommand, hc, hf, claimEngine, startEngine, hp, underway, he, modCme, modTwr]

/-- A command whose operation the table writer has started is under way as it stands. -/
theorem underway_of_granted {tag : Half} {c : HostCmd} {s : State}
    (he : s.cme.executing = some { tag := tag, cmd := c }) (hp : s.twr.performing = some .engine) :
    underway tag c s = s := by
  have hcme : { s.cme with executing := some { tag := tag, cmd := c } } = s.cme := by rw [← he]
  have htwr : { s.twr with
      performing := some .engine
      runCount := if s.cme.executing.isSome then s.twr.runCount else 0 } = s.twr := by simp [he, ← hp]
  rw [underway, hcme, htwr]

/-- The step of a started table command is its completion (log entry 4). -/
theorem tableRow_started {tag : Half} {c : HostCmd} {s : State} (hc : isTable c = true) (hfit : c.fits = true)
    (hs : TableStarted tag c s) (hf : s.rck.tableFault = false) :
    exec (rowOf tag c) s = .next (completeTable tag c (underway tag c s)) := by
  suffices hstep : tableStep tag c s = completeTable tag c (underway tag c s) by
    rw [rowOf_table tag c s hc, hstep]
  rcases hs with ⟨he, hw⟩ | ⟨he, hp, -⟩
  · have hready := ready_of_free c s he hfit
    have htake := takeCommand_free tag hc hf he.1 hw.1
    simp [tableStep, he.1, hready, htake, underway, granted]
  · rw [underway_of_granted he hp]
    simp [tableStep, he, granted, hp]

theorem tableStarted_queue {tag : Half} {c : HostCmd} {s : State} (hs : TableStarted tag c s) : s.cme.queue = [] := by
  rcases hs with ⟨⟨-, hq, -⟩, -⟩ | ⟨-, -, hq⟩ <;> exact hq

/-- No operation of the table writer touches the engine. -/
theorem perform_table_cme {c : HostCmd} (s : State) (hc : isTable c = true) : (perform c s).state.cme = s.cme := by
  cases c <;> simp [isTable] at hc <;> simp [perform]

/-- With no command waiting, a table writer goes on to the walker's step that waits (R145, R146). -/
theorem startNext_engine_idle {s : State} (he : s.cme.executing = none) :
    startNext s = { s with twr := { s.twr with performing := if s.rwk.inFlight then some .walker else none } } := by
  cases hw : s.rwk.inFlight <;> simp [startNext, walkerWaits, engineWaits, startWalker, modTwr, he, hw]

theorem raised_congr {rs : List Nat} {s s' t : State} (h : s'.nfu = s.nfu) (hr : Raised rs s' t) : Raised rs s t := by
  obtain ⟨hsrc, hvec⟩ := hr
  refine ⟨fun k => ?_, ?_⟩
  · rw [hsrc k, State.source, State.source, h]
  · rw [hvec, h, newVectors_congr (s := s) (t := t) (by rw [h]) rfl]

/-- What the completion of a table command does to the engine and the sources, whether or not its response is
discarded; nothing else changes (R166, R168). -/
theorem finishTable_completed (tag : Half) (c : HostCmd) (o : CmdOut) (u : State) :
    finishTable tag c o u = { u with cme := (finishTable tag c o u).cme, nfu := (finishTable tag c o u).nfu }
      ∧ (finishTable tag c o u).cme = completed (responseOf tag c.code o) u.cme
      ∧ Raised (completionRaise u.cme) u (finishTable tag c o u) := by
  cases hd : u.cme.discard with
  | true =>
    have hfin : finishTable tag c o u = modCme (fun e => { e with executing := none, discard := false }) u := by
      simp [finishTable, hd]
    rw [hfin]
    refine ⟨rfl, by simp [completed, hd], ?_⟩
    simp only [completionRaise, hd, Bool.true_eq_false, false_and, if_false]
    exact raised_congr rfl (raised_none _)
  | false =>
    have hfin : finishTable tag c o u
        = placeResponse (responseOf tag c.code o) (modCme (fun e => { e with executing := none }) u) := by
      simp [finishTable, hd]
    obtain ⟨hrest, hcme, hraise⟩ := placeResponse_responded (responseOf tag c.code o)
      (modCme (fun e => { e with executing := none }) u)
    rw [hfin]
    refine ⟨?_, by simp [hcme, completed, hd], ?_⟩
    · conv_lhs => rw [hrest]
      rfl
    · simp only [completionRaise, hd, true_and]
      exact raised_congr rfl hraise

/-- A started table command: its effects and their event from the command under way, then its response and the table
writer's next operation. -/
theorem tableRow_completed {tag : Half} {c : HostCmd} {s : State} {o : CmdOut} (hc : isTable c = true)
    (hfit : c.fits = true) (hs : TableStarted tag c s) (hf : s.rck.tableFault = false)
    (ho : perform c (underway tag c s) = o) :
    let u := endEvent (underway tag c s) o.state
    ∃ t, exec (rowOf tag c) s = .next t
      ∧ t = { u with
          cme := t.cme
          nfu := t.nfu
          twr := { u.twr with performing := if u.rwk.inFlight then some .walker else none } }
      ∧ t.cme = completed (responseOf tag c.code o) s.cme
      ∧ Raised (completionRaise s.cme) u t := by
  intro u
  have hcme : u.cme = (underway tag c s).cme := by simp [u, ← ho, perform_table_cme _ hc]
  obtain ⟨hrest, hfin, hraise⟩ := finishTable_completed tag c o u
  generalize hm : finishTable tag c o u = m at hrest hfin hraise
  have hidle : m.cme.executing = none := by rw [hfin]; rfl
  have hqueue : m.cme.queue = [] := by rw [hfin, hcme]; exact tableStarted_queue (s := s) hs
  have hcomplete : completeTable tag c (underway tag c s)
      = { m with twr := { m.twr with performing := if m.rwk.inFlight then some .walker else none } } := by
    rw [completeTable, ho, hm, runEngine_idle m (Or.inl hqueue), startNext_engine_idle hidle]
  have hrwk : m.rwk = u.rwk := by rw [hrest]
  have htwr : m.twr = u.twr := by rw [hrest]
  refine ⟨_, (tableRow_started hc hfit hs hf).trans (congrArg _ hcomplete), ?_, ?_, ?_⟩
  · rw [hrwk, htwr]
    conv_lhs => rw [hrest]
  · rw [hfin, hcme]; rfl
  · rw [show completionRaise s.cme = completionRaise u.cme by rw [hcme]; rfl]
    exact hraise

/-! ### A walker without work (R136, R137) -/

theorem mostUrgent_eq_none {s : State} {l : List Nat} (h : mostUrgent s l = none) : l = [] := by
  cases l with
  | nil => rfl
  | cons u l =>
    simp only [mostUrgent] at h
    split at h
    · cases h
    · split at h <;> cases h

/-- A walker that finds no work finds no group to rebuild (R137). -/
theorem chooseWork_none_rebuildList {s : State} (h : chooseWork s = none) : s.rck.rebuildList = [] := by
  simp only [chooseWork] at h
  split at h
  · split at h
    · rename_i u _ _ hpre
      have hpending := mostUrgent_eq_none (Option.map_eq_none_iff.1 h)
      simp [preempted, hpending] at hpre
    · cases h
  · split at h
    · cases h
    · split at h
      · cases h
      · split at h
        · cases h
        · rename_i hnil
          exact not_not.1 hnil

/-- A shorter rebuild list gives an IDLE walker no work. -/
theorem served_of_rebuildList {s t : State} (hw : WalkerServed s) (hrwk : t.rwk = s.rwk) (huma : t.uma = s.uma)
    (hrck : t.rck = { s.rck with rebuildList := t.rck.rebuildList })
    (hl : s.rck.rebuildList = [] → t.rck.rebuildList = []) : WalkerServed t := by
  intro hwork hflight
  have hnone := hw (by rw [← hrwk]; exact hwork) (by rw [← hrwk]; exact hflight)
  have hnil := chooseWork_none_rebuildList hnone
  rw [← hnone]
  have hmon (n : Nat) : t.mon n = s.mon n := by rw [State.mon, huma]; rfl
  exact chooseWork_congr (by rw [hrwk]) (by rw [hrwk]) (by rw [hrck]) (by rw [hrck]) (by rw [hl hnil, hnil])
    fun n => by rw [hmon]

/-! ### A table command that gives the walker no work -/

/-- From `s` to `u` a table writer operation changed nothing but the records, the lists, the depleted set and the
sources it raised, and left an IDLE walker without work. -/
structure TableChanged (s u : State) : Prop where
  rest : u = { s with groups := u.groups, adjs := u.adjs, dpx := u.dpx, twr := u.twr, rck := u.rck, nfu := u.nfu }
  check : u.rck = { s.rck with rebuildList := u.rck.rebuildList }
  writer : u.twr = { s.twr with depleted := u.twr.depleted }
  served : WalkerServed u

theorem state_eq_of_kept {s u : State} (hpending : u.pending = s.pending) (hnow : u.now = s.now)
    (hdraws : u.draws = s.draws) (hfsl : u.fsl = s.fsl) (hrsu : u.rsu = s.rsu) (hrwk : u.rwk = s.rwk)
    (huma : u.uma = s.uma) (hevu : u.evu = s.evu) (hcme : u.cme = s.cme) (hout : u.out = s.out) :
    u = { s with groups := u.groups, adjs := u.adjs, dpx := u.dpx, twr := u.twr, rck := u.rck, nfu := u.nfu } := by
  cases u
  simp_all

/-- The records, lists and counts of `t` are those of `u`. -/
structure SameTables (u t : State) : Prop where
  groups : t.groups = u.groups
  adjs : t.adjs = u.adjs
  dpx : t.dpx = u.dpx
  rck : t.rck = u.rck
  depleted : t.twr.depleted = u.twr.depleted

/-- A started table command that leaves an IDLE walker without work answers, raising what its operation raised. -/
theorem tableRow_answered {tag : Half} {c : HostCmd} {s : State} {o : CmdOut} {rs : List Nat} (hc : isTable c = true)
    (hfit : c.fits = true) (hs : TableStarted tag c s) (hf : s.rck.tableFault = false)
    (ho : perform c (underway tag c s) = o) (hch : TableChanged (underway tag c s) o.state)
    (hr : Raised rs s (endEvent (underway tag c s) o.state)) :
    ∃ t, exec (rowOf tag c) s = .next t ∧ TableAnswered (responseOf tag c.code o) rs s t ∧ SameTables o.state t := by
  obtain ⟨t, hexec, hrest, hcme, hraise⟩ := tableRow_completed hc hfit hs hf ho
  obtain ⟨hkept, hcheck, hwriter, hserved⟩ := hch
  rw [endEvent_served hserved] at *
  generalize o.state = u at *
  have hdep : t.twr.depleted = u.twr.depleted := by rw [hrest]; rfl
  have hrck : t.rck = u.rck := by rw [hrest]; rfl
  refine ⟨t, hexec, ⟨?_, ?_, hcme, ?_, _, hr, hraise⟩, ?_, ?_, ?_, hrck, hdep⟩
  · rw [hrest, hkept]; rfl
  · rw [hrck, hcheck]; rfl
  · have hrwk : u.rwk = s.rwk := by rw [hkept]; rfl
    have htwr : t.twr = { u.twr with performing := if u.rwk.inFlight then some .walker else none } := by rw [hrest]; rfl
    rw [htwr, hrwk, hwriter]; rfl
  all_goals rw [hrest]; rfl

/-- A started table command whose operation raises nothing. -/
theorem tableRow_quiet {tag : Half} {c : HostCmd} {s : State} {o : CmdOut} (hc : isTable c = true)
    (hfit : c.fits = true) (hs : TableStarted tag c s) (hf : s.rck.tableFault = false)
    (ho : perform c (underway tag c s) = o) (hch : TableChanged (underway tag c s) o.state)
    (hn : o.state.nfu = s.nfu) :
    ∃ t, exec (rowOf tag c) s = .next t ∧ TableAnswered (responseOf tag c.code o) [] s t ∧ SameTables o.state t := by
  refine tableRow_answered hc hfit hs hf ho hch ?_
  rw [endEvent_quiet hch.served (by rw [hn]; rfl)]
  exact ⟨fun k => by simp [State.source, hn], by rw [hn, newVectors_self (by rw [hn]), List.append_nil]⟩

theorem underway_served {tag : Half} {c : HostCmd} {s : State} (hw : WalkerServed s) :
    WalkerServed (underway tag c s) :=
  served_congr hw rfl rfl rfl rfl fun _ => rfl

/-- A started table command that fails one of its checks is refused and changes nothing (R1, R165). -/
theorem tableRow_refused {tag : Half} {c : HostCmd} {s : State} {st : Status} (hc : isTable c = true)
    (hfit : c.fits = true) (hs : TableStarted tag c s) (hw : WalkerServed s) (hf : s.rck.tableFault = false)
    (ho : perform c (underway tag c s) = refuse st (underway tag c s)) :
    TableRefused (rowOf tag c) tag c.code st s := by
  obtain ⟨t, hexec, hans, hsame⟩ :=
    tableRow_quiet hc hfit hs hf ho ⟨rfl, rfl, rfl, underway_served hw⟩ rfl
  exact ⟨t, hexec, hans, hsame.groups, hsame.adjs, hsame.dpx, hsame.rck, hsame.depleted⟩

/-! ### Clean records -/

theorem clean_congr {s t : State} (hrck : t.rck = s.rck) (h : Clean s) : Clean t := by
  rw [Clean, hrck]; exact h

theorem writeUnits_rck (p : RecUnit → Bool) {s : State} (h : Clean s) : (writeUnits p s).rck = s.rck := by
  rw [writeUnits_clean p h]

/-! ### ADJ_WRITE and ADJ_DELETE over clean records (R4 to R7) -/

theorem byte_eq_ff (b : Byte) : b = 0xFF ↔ b.toNat = 255 := by
  rw [← BitVec.toNat_inj]; rfl

theorem uplinkNamed_iff (b : Byte) : uplinkNamed b = true ↔ b.toNat < 32 ∨ b.toNat = 255 := by
  rw [← byte_eq_ff]; simp [uplinkNamed]

theorem uplinkOf_eq (b : Byte) : uplinkOf b = if b.toNat = 255 then none else some b.toNat := by
  simp only [uplinkOf, byte_eq_ff]

theorem uplinkField_eq (b : Byte) : uplinkField b = if uplinkNamed b = true then some (uplinkOf b) else none := by
  have h32 : b.toNat < Config.uplinks ↔ b.toNat < 32 := Iff.rfl
  by_cases h255 : b.toNat = 255 <;> simp [uplinkField, uplinkOf_eq, uplinkNamed_iff, h255, h32]

theorem writeAdj_clean (a : Nat) (v : Adj) {s : State} (h : Clean s) : writeAdj a v s = setAdj a v s :=
  writeUnits_clean (s := setAdj a v s) _ h

/-- An index, port or uplink that names none. -/
theorem performAdjWrite_range {adj : Half} {port : Byte} (rewrite : Half) {uplink : Byte} {s : State}
    (hf : s.rck.tableFault = false)
    (hr : 8192 ≤ adj.toNat ∨ 128 ≤ port.toNat ∨ uplinkNamed uplink = false) :
    performAdjWrite adj port rewrite uplink s = refuse .range s := by
  simp only [performAdjWrite, hf, Bool.false_eq_true, if_false, Config.adjCapacity, Config.ports]
  by_cases ha : 8192 ≤ adj.toNat
  · rw [if_pos ha]
  by_cases hp : 128 ≤ port.toNat
  · rw [if_neg ha, if_pos hp]
  · rw [if_neg ha, if_neg hp, uplinkField_eq, if_neg (by simp_all)]

/-- ADJ_WRITE past its range checks, by the count, the status and the uplink that it reads. -/
theorem performAdjWrite_clean {adj : Half} {port : Byte} (rewrite : Half) {uplink : Byte} {s : State} (h : Clean s)
    (hf : s.rck.tableFault = false) (ha : adj.toNat < 8192) (hp : port.toNat < 128) (hu : uplinkNamed uplink = true) :
    performAdjWrite adj port rewrite uplink s =
      let r := s.adj adj.toNat
      let v := writtenAdj port.toNat rewrite.toNat (uplinkOf uplink) r
      if r.refs = 0 ∨ r.status = .invalid ∨ (r.status = .valid ∧ r.uplink = uplinkOf uplink) then
        { state := setAdj adj.toNat v s }
      else if r.status = .damaged then writeDamagedAdj adj.toNat v s
      else refuse .inUse s := by
  simp only [performAdjWrite, hf, Bool.false_eq_true, if_false, Config.adjCapacity, Config.ports, Nat.not_le.2 ha,
    Nat.not_le.2 hp, uplinkField_eq, hu, if_true, readFields_clean false _ h, readAdjContent_clean _ h,
    writeAdj_clean _ _ h]
  by_cases hrefs : (s.adj adj.toNat).refs = 0
  · simp [hrefs]
  · cases hst : (s.adj adj.toNat).status <;> simp [hrefs]

/-- A referenced VALID adjacency is not moved to another uplink (R5). -/
theorem performAdjWrite_inUse {adj : Half} {port : Byte} (rewrite : Half) {uplink : Byte} {s : State} (h : Clean s)
    (hf : s.rck.tableFault = false) (ha : adj.toNat < 8192) (hp : port.toNat < 128) (hu : uplinkNamed uplink = true)
    (hrefs : (s.adj adj.toNat).refs ≠ 0) (hst : (s.adj adj.toNat).status = .valid)
    (hup : (s.adj adj.toNat).uplink ≠ uplinkOf uplink) :
    performAdjWrite adj port rewrite uplink s = refuse .inUse s := by
  simp [performAdjWrite_clean rewrite h hf ha hp hu, hrefs, hst, hup]

/-- An adjacency without references, or a VALID one on the given uplink, is written (R4, R5). -/
theorem performAdjWrite_accepted {adj : Half} {port : Byte} (rewrite : Half) {uplink : Byte} {s : State} (h : Clean s)
    (hf : s.rck.tableFault = false) (ha : adj.toNat < 8192) (hp : port.toNat < 128) (hu : uplinkNamed uplink = true)
    (hacc : (s.adj adj.toNat).refs = 0
      ∨ ((s.adj adj.toNat).status = .valid ∧ (s.adj adj.toNat).uplink = uplinkOf uplink)) :
    performAdjWrite adj port rewrite uplink s =
      { state := setAdj adj.toNat (writtenAdj port.toNat rewrite.toNat (uplinkOf uplink) (s.adj adj.toNat)) s } :=
  (performAdjWrite_clean rewrite h hf ha hp hu).trans (if_pos (hacc.imp_right Or.inr))

/-- A referenced DAMAGED adjacency is checked against the dependency index (R6). -/
theorem performAdjWrite_damaged {adj : Half} {port : Byte} (rewrite : Half) {uplink : Byte} {s : State} (h : Clean s)
    (hf : s.rck.tableFault = false) (ha : adj.toNat < 8192) (hp : port.toNat < 128) (hu : uplinkNamed uplink = true)
    (hrefs : (s.adj adj.toNat).refs ≠ 0) (hst : (s.adj adj.toNat).status = .damaged) :
    performAdjWrite adj port rewrite uplink s =
      writeDamagedAdj adj.toNat (writtenAdj port.toNat rewrite.toNat (uplinkOf uplink) (s.adj adj.toNat)) s := by
  simp [performAdjWrite_clean rewrite h hf ha hp hu, hrefs, hst]

/-- ADJ_DELETE over clean records, its checks in their order. -/
theorem performAdjDelete_clean (adj : Half) {s : State} (h : Clean s) (hf : s.rck.tableFault = false) :
    performAdjDelete adj s =
      if 8192 ≤ adj.toNat then refuse .range s
      else if (s.adj adj.toNat).status = .invalid then refuse .notValid s
      else if (s.adj adj.toNat).refs = 0 then { state := setAdj adj.toNat {} s }
      else refuse .inUse s := by
  simp only [performAdjDelete, hf, Bool.false_eq_true, if_false, Config.adjCapacity, readField_clean _ h,
    writeAdj_clean _ _ h]

/-- A write of one adjacency record is a table writer's change. -/
theorem tableChanged_setAdj (a : Nat) (v : Adj) {s : State} (hw : WalkerServed s) : TableChanged s (setAdj a v s) :=
  ⟨rfl, rfl, rfl, served_congr hw rfl rfl rfl rfl fun _ => rfl⟩

/-- A started table command that writes one adjacency record and answers OK. -/
theorem tableRow_setAdj {tag : Half} {c : HostCmd} {s : State} {a : Nat} {v : Adj} (hc : isTable c = true)
    (hfit : c.fits = true) (hs : TableStarted tag c s) (hw : WalkerServed s) (hf : s.rck.tableFault = false)
    (ho : perform c (underway tag c s) = { state := setAdj a v (underway tag c s) }) :
    ∃ t, exec (rowOf tag c) s = .next t ∧ TableAnswered (answering tag c.code .ok .empty) [] s t
      ∧ t.groups = s.groups ∧ t.dpx = s.dpx ∧ t.rck = s.rck ∧ t.twr.depleted = s.twr.depleted
      ∧ ∀ x, t.adj x = if x = a then v else s.adj x := by
  obtain ⟨t, hexec, hans, hsame⟩ :=
    tableRow_quiet hc hfit hs hf ho (tableChanged_setAdj a v (underway_served hw)) rfl
  refine ⟨t, hexec, hans, hsame.groups, hsame.dpx, hsame.rck, hsame.depleted, fun x => ?_⟩
  rw [State.adj, hsame.adjs]
  exact adj_setAdj a x v (underway tag c s)

/-- Settles O19: the checks of ADJ_WRITE (R4, R5) and ADJ_DELETE (R7) read the record as it stands, and each accepted
command is one write of it. -/
theorem adjacencyWriteAndDelete : Obligations.AdjacencyWriteAndDelete := by
  intro tag adj port rewrite uplink s hw hclean hf i d r
  have hclean' (c : HostCmd) : Clean (underway tag c s) := hclean
  have hdelete (c : HostCmd) := performAdjDelete_clean adj (hclean' c) hf
  refine ⟨fun hs => ⟨fun hr => ?_, fun ha hp hu => ⟨fun hrefs hst hup => ?_, fun hacc => ?_⟩⟩,
    fun hs => ⟨fun hr => ?_, fun ha hst => ?_, fun ha hst hrefs => ?_, fun ha hst hrefs => ?_⟩⟩
  · exact tableRow_refused rfl rfl hs hw hf (performAdjWrite_range rewrite hf hr)
  · exact tableRow_refused rfl rfl hs hw hf
      (performAdjWrite_inUse rewrite (hclean' _) hf ha hp hu hrefs hst hup)
  · obtain ⟨t, hexec, hans, hgroups, hdpx, hrck, hdep, hadj⟩ :=
      tableRow_setAdj rfl rfl hs hw hf (performAdjWrite_accepted rewrite (hclean' _) hf ha hp hu hacc)
    exact ⟨t, hexec, hans, hgroups, hdpx, hrck, hdep, hadj⟩
  · exact tableRow_refused rfl rfl hs hw hf ((hdelete _).trans (if_pos hr))
  · exact tableRow_refused rfl rfl hs hw hf
      ((hdelete _).trans ((if_neg (Nat.not_le.2 ha)).trans (if_pos hst)))
  · exact tableRow_refused rfl rfl hs hw hf
      ((hdelete _).trans ((if_neg (Nat.not_le.2 ha)).trans ((if_neg hst).trans (if_neg hrefs))))
  · exact tableRow_setAdj rfl rfl hs hw hf
      ((hdelete _).trans ((if_neg (Nat.not_le.2 ha)).trans ((if_neg hst).trans (if_pos hrefs))))

end Sys2Proof.Machine

namespace Sys2Proof.Machine

open Sys2Proof

/-! ### ADJ_WRITE of a referenced DAMAGED adjacency over clean records (R6, R153) -/

/-- Group `g` holds references and one of its members names adjacency `a` (R8). -/
def RefersTo (s : State) (a g : Nat) : Prop :=
  (s.group g).status ≠ .notInstalled ∧ ∃ m ∈ (s.group g).members, m.adj = a

/-- The search finds the lowest handle that references `a`. -/
theorem firstReferencing_found {a g : Nat} {s : State} (h : Clean s) (hg : g < 4096) (hr : RefersTo s a g)
    (hfirst : ∀ k, k < g → ¬ RefersTo s a k) : firstReferencing a Config.groupCapacity 0 s = (.found g, s) := by
  have hp (k : Nat) : (referencing (s.group k) && (s.group k).members.any (fun m => decide (m.adj = a))) = true
      ↔ RefersTo s a k := by
    simp [referencing, RefersTo]
  have hfind : (List.range' 0 Config.groupCapacity).find? (fun k =>
      referencing (s.group k) && (s.group k).members.any (fun m => decide (m.adj = a))) = some g := by
    rw [List.find?_range'_eq_some]
    refine ⟨(hp g).2 hr, ?_, fun k _ hk => ?_⟩
    · simpa [Config.groupCapacity] using hg
    · simpa only [Bool.not_eq_true', ← Bool.not_eq_true, hp] using hfirst k hk
  rw [firstReferencing_clean a _ 0 h, hfind]

theorem writeDamagedAdj_pending {a : Nat} {v : Adj} {s : State} (hp : s.rck.dependencyPending = true) :
    writeDamagedAdj a v s = refuse .damaged s := by
  simp [writeDamagedAdj, hp]

/-- The check against the dependency index, of which record check finds every entry clean (R6). -/
theorem writeDamagedAdj_found {a g : Nat} {v : Adj} {s : State} (h : Clean s) (hp : s.rck.dependencyPending = false)
    (hfound : firstReferencing a Config.groupCapacity 0 s = (.found g, s)) :
    writeDamagedAdj a v s =
      let others := (s.group g).members.filter (fun m => decide (m.adj ≠ a))
      if uplinkAgrees (standsOn s g) (validUplinks s others) v.uplink then { state := repairAdj a v s } else refuse .inUse s := by
  simp only [writeDamagedAdj, hp, Bool.false_eq_true, if_false, hfound, readEntriesOf_clean _ _ h,
    readAdjs_clean _ _ h]

theorem mem_validUplinks (s : State) (ms : List Member) (u : Nat) :
    u ∈ validUplinks s ms ↔ ∃ m ∈ ms, (s.adj m.adj).status = .valid ∧ (s.adj m.adj).uplink = some u := by
  rw [validUplinks, List.mem_filterMap]
  refine exists_congr fun m => and_congr_right fun _ => ?_
  cases hst : (s.adj m.adj).status <;> simp

/-- The agreement of R6 looks only at uplinks U0 to U31 of the accounted set. -/
theorem uplinkAgrees_iff {S T T' : List Nat} {b : Byte} (hb : uplinkNamed b = true) (hS : ∀ u ∈ S, u < 32)
    (hT : ∀ u, u < 32 → (u ∈ T' ↔ u ∈ T)) :
    uplinkAgrees S T' (uplinkOf b) = true ↔
      match uplinkOf b with
      | none => S.filter (fun u => decide (u ∉ T)) = []
      | some u => S.filter (fun u => decide (u ∉ T)) = [u] ∨ (S.filter (fun u => decide (u ∉ T)) = [] ∧ u ∈ T) := by
  have hfilter : S.filter (fun u => decide (u ∉ T')) = S.filter (fun u => decide (u ∉ T)) :=
    List.filter_congr fun u hu => by simp [hT u (hS u hu)]
  rw [uplinkOf_eq]
  by_cases h255 : b.toNat = 255
  · simp only [if_pos h255, uplinkAgrees, hfilter, decide_eq_true_eq]
  · have h32 : b.toNat < 32 := ((uplinkNamed_iff b).1 hb).resolve_right h255
    simp only [if_neg h255, uplinkAgrees, hfilter, hT _ h32, Bool.or_eq_true, Bool.and_eq_true, decide_eq_true_eq]

/-! ### The repair's effects -/

theorem mem_forEach_joinRebuild (l : List Nat) (s : State) (x : Nat) :
    x ∈ (forEach l joinRebuild s).rck.rebuildList ↔ x ∈ s.rck.rebuildList ∨ x ∈ l := by
  induction l generalizing s with
  | nil => simp [forEach]
  | cons g l ih =>
    have hstep : forEach (g :: l) joinRebuild s = forEach l joinRebuild (joinRebuild g s) := rfl
    simp only [hstep, ih, joinRebuild, modRck_rck, mem_setInsert, List.mem_cons]
    tauto

theorem mem_installedNaming (s : State) (a x : Nat) : x ∈ installedNaming s a ↔ joinsFor s a x := by
  simp [installedNaming, joinsFor]

theorem rck_setDependencyPending (s : State) :
    (setDependencyPending s).rck = { s.rck with dependencyPending := true } := by
  unfold setDependencyPending
  split
  · rename_i hp; rw [← hp]
  · simp

/-- The groups that name the adjacency join the rebuild list (R6), and the index awaits rebuild (R153). -/
theorem repairAdj_check (a : Nat) (v : Adj) {s : State} (h : Clean s) :
    (repairAdj a v s).rck.dependencyPending = true
      ∧ ∀ x, x ∈ (repairAdj a v s).rck.rebuildList ↔ x ∈ s.rck.rebuildList ∨ joinsFor s a x := by
  simp only [repairAdj, raise_frame, rck_setDependencyPending, writeAdj_clean _ _ h, true_and, joinNaming,
    mem_forEach_joinRebuild, mem_installedNaming]
  exact fun x => Iff.rfl

theorem adj_repairAdj (a : Nat) (v : Adj) {s : State} (h : Clean s) (x : Nat) :
    (repairAdj a v s).adj x = if x = a then v else s.adj x := by
  rw [← adj_setAdj, ← writeAdj_clean a v h]
  simp [repairAdj, State.adj]

theorem source_repairAdj (a : Nat) (v : Adj) (s : State) (k : Nat) :
    (repairAdj a v s).source k = if k = rankIntegrity then { s.source k with pending := true } else s.source k := by
  rw [repairAdj, source_raise]
  simp [State.source]

/-- The end of an event gives vector messages and raises nothing. -/
theorem source_endEvent (s t : State) (k : Nat) : (endEvent s t).source k = t.source k := by
  rw [endEvent, flushVectors_eq]
  show (wakeWalker t).source k = t.source k
  simp [State.source]

/-- A started table command that repairs an adjacency and answers OK. -/
theorem tableRow_repair {tag : Half} {c : HostCmd} {s : State} {a : Nat} {v : Adj} (hc : isTable c = true)
    (hfit : c.fits = true) (hs : TableStarted tag c s) (h : Clean s) (hf : s.rck.tableFault = false)
    (ho : perform c (underway tag c s) = { state := repairAdj a v (underway tag c s) }) :
    ∃ t, exec (rowOf tag c) s = .next t
      ∧ (∀ x, t.adj x = if x = a then v else s.adj x)
      ∧ t.groups = s.groups ∧ t.dpx = s.dpx ∧ t.uma = s.uma ∧ t.rck.dependencyPending = true
      ∧ (∀ x, x ∈ t.rck.rebuildList ↔ x ∈ s.rck.rebuildList ∨ joinsFor s a x)
      ∧ (∀ k, t.source k = if k = rankIntegrity ∨ k ∈ completionRaise s.cme then
          { s.source k with pending := true } else s.source k)
      ∧ t.cme = completed (answering tag c.code .ok .empty) s.cme := by
  have h' : Clean (underway tag c s) := h
  obtain ⟨t, hexec, hrest, hcme, hraise, -⟩ := tableRow_completed hc hfit hs hf ho
  obtain ⟨hpend, hlist⟩ := repairAdj_check a v h'
  have hrck : t.rck = (repairAdj a v (underway tag c s)).rck := by rw [hrest]; simp
  refine ⟨t, hexec, fun x => ?_, ?_, ?_, ?_, ?_, ?_, fun k => ?_, hcme⟩
  · have hadjs : t.adjs = (repairAdj a v (underway tag c s)).adjs := by rw [hrest]; simp
    rw [State.adj, hadjs]
    exact adj_repairAdj a v h' x
  · rw [hrest]; simp [underway]
  · rw [hrest]; simp [underway]
  · rw [hrest]; simp [underway]
  · rw [hrck, hpend]
  · rw [hrck]; exact hlist
  · have hkept : (underway tag c s).source k = s.source k := rfl
    rw [hraise k, source_endEvent, source_repairAdj, hkept]
    by_cases hi : k = rankIntegrity <;> simp [hi]

/-- Settles O20: over clean records the search of R6 finds the lowest referencing group, and an uplink that its lists
call for repairs the adjacency. -/
theorem adjWriteRepairsADamagedAdjacency : Obligations.AdjWriteRepairsADamagedAdjacency := by
  intro tag adj port rewrite uplink s hs hw hclean hf ha hport hnamed hst hrefs i refers
  have hclean' : Clean (underway tag (.adjWrite adj port rewrite uplink) s) := hclean
  have hdamaged := performAdjWrite_damaged rewrite hclean' hf ha hport hnamed hrefs hst
  refine ⟨fun hp => ?_, fun hp g hg href hfirst => ?_⟩
  · exact tableRow_refused rfl rfl hs hw hf (hdamaged.trans (writeDamagedAdj_pending hp))
  intro S T unaccounted agrees
  have hcheck := hdamaged.trans
    (writeDamagedAdj_found hclean' hp (firstReferencing_found hclean' hg href hfirst))
  have hagrees : uplinkAgrees S (validUplinks s ((s.group g).members.filter (fun m => decide (m.adj ≠ adj.toNat))))
      (uplinkOf uplink) = true ↔ agrees := by
    refine uplinkAgrees_iff hnamed (fun u hu => List.mem_range.1 (List.mem_of_mem_filter hu)) fun u hu => ?_
    simp [T, mem_validUplinks, hu, and_assoc]
  refine ⟨fun hno => ?_, fun hyes => ?_⟩
  · exact tableRow_refused rfl rfl hs hw hf (hcheck.trans (if_neg (mt hagrees.1 hno)))
  · obtain ⟨t, hexec, hadj, hrest⟩ := tableRow_repair rfl rfl hs hclean hf (hcheck.trans (if_pos (hagrees.2 hyes)))
    exact ⟨t, hexec, (hadj _).trans (if_pos rfl), fun a hne => (hadj a).trans (if_neg hne), hrest⟩

end Sys2Proof.Machine

namespace Sys2Proof.Machine

open Sys2Proof

/-! ### Sums over a canonical table, and rising lists -/

section
variable {α : Type}

theorem tableGet_of_unlisted (d : α) {k : Nat} {t : Table α} (h : ∀ e ∈ t, e.1 ≠ k) : tableGet d t k = d := by
  induction t with
  | nil => rfl
  | cons e t ih =>
    obtain ⟨i, w⟩ := e
    rw [tableGet, if_neg (h _ List.mem_cons_self), ih fun e he => h e (List.mem_cons_of_mem _ he)]

theorem tableErase_of_unlisted {k : Nat} {t : Table α} (h : ∀ e ∈ t, e.1 ≠ k) : tableErase k t = t := by
  induction t with
  | nil => rfl
  | cons e t ih =>
    obtain ⟨i, w⟩ := e
    rw [tableErase, if_neg (h _ List.mem_cons_self), ih fun e he => h e (List.mem_cons_of_mem _ he)]

/-- A record read from a table is listed there or is the reset record. -/
theorem tableGet_listed (d : α) (t : Table α) (k : Nat) : tableGet d t k = d ∨ (k, tableGet d t k) ∈ t := by
  induction t with
  | nil => exact Or.inl rfl
  | cons e t ih =>
    obtain ⟨i, w⟩ := e
    by_cases hi : i = k
    · simp [tableGet, hi]
    · simpa [tableGet, hi, Ne.symm hi] using ih

variable [DecidableEq α]

theorem tableWf_cons (d : α) {i : Nat} {w : α} {t : Table α} (h : tableWf d ((i, w) :: t) = true) :
    (∀ e ∈ t, i < e.1) ∧ tableWf d t = true := by
  simp only [tableWf, Bool.and_eq_true, decide_eq_true_eq, List.all_eq_true] at h
  exact ⟨h.1.2, h.2⟩

/-- The sum of a measure over a table's records. -/
def tableSum (f : α → Nat) (t : Table α) : Nat := (t.map (fun e => f e.2)).sum

theorem tableSum_tableErase (d : α) (f : α → Nat) (hd : f d = 0) (k : Nat) {t : Table α} (h : tableWf d t = true) :
    tableSum f (tableErase k t) + f (tableGet d t k) = tableSum f t := by
  induction t with
  | nil => simp [tableErase, tableSum, tableGet, hd]
  | cons e t ih =>
    obtain ⟨i, w⟩ := e
    obtain ⟨hlt, ht⟩ := tableWf_cons d h
    by_cases hi : i = k
    · have hun : ∀ e ∈ t, e.1 ≠ k := fun e he => by have := hlt e he; omega
      simp [tableErase, tableGet, hi, tableErase_of_unlisted hun, tableSum, Nat.add_comm]
    · have := ih ht
      simp only [tableSum, tableErase, tableGet, hi, if_false, List.map_cons, List.sum_cons] at this ⊢
      omega

theorem tableSum_tablePut (d : α) (f : α → Nat) (hd : f d = 0) (k : Nat) (v : α) {t : Table α}
    (h : tableWf d t = true) : tableSum f (tablePut k v t) + f (tableGet d t k) = tableSum f t + f v := by
  induction t with
  | nil => simp [tablePut, tableSum, tableGet, hd]
  | cons e t ih =>
    obtain ⟨i, w⟩ := e
    obtain ⟨hlt, ht⟩ := tableWf_cons d h
    rcases Nat.lt_trichotomy k i with hk | rfl | hk
    · have hun : tableGet d ((i, w) :: t) k = d :=
        tableGet_of_unlisted d (List.forall_mem_cons.2 ⟨hk.ne', fun e he => (hk.trans (hlt e he)).ne'⟩)
      simp [hun, hd, tablePut, hk, tableSum]
      omega
    · simp [tablePut, tableGet, tableSum]
      omega
    · have := ih ht
      simp only [tableSum, tablePut, tableGet, hk.not_gt, hk.ne', hk.ne, if_false, List.map_cons, List.sum_cons]
        at this ⊢
      omega

/-- A write exchanges one record's measure. -/
theorem tableSum_tableSet (d : α) (f : α → Nat) (hd : f d = 0) (k : Nat) (v : α) {t : Table α}
    (h : tableWf d t = true) : tableSum f (tableSet d k v t) + f (tableGet d t k) = tableSum f t + f v := by
  unfold tableSet
  split
  · rename_i hv
    rw [tableSum_tableErase d f hd k h, hv, hd, Nat.add_zero]
  · exact tableSum_tablePut d f hd k v h

end

theorem nodup_of_rising {l : List Nat} (h : rising l = true) : l.Nodup := by
  suffices hc : l.IsChain (· < ·) from (List.isChain_iff_pairwise.1 hc).imp Nat.ne_of_lt
  induction l with
  | nil => exact .nil
  | cons a l ih =>
    cases l with
    | nil => exact .singleton a
    | cons b l =>
      simp only [rising, Bool.and_eq_true, decide_eq_true_eq] at h
      exact .cons_cons h.1 (ih h.2)

theorem length_setErase {n : Nat} {l : List Nat} (hl : l.Nodup) (hn : n ∈ l) :
    (setErase n l).length + 1 = l.length := by
  have herase : setErase n l = l.erase n := by
    rw [hl.erase_eq_filter, setErase]
    exact List.filter_congr fun m _ => Bool.eq_iff_iff.2 (by simp)
  rw [herase, List.length_erase_add_one hn]

/-! ### A group leaves the lists (R14) -/

/-- A group that is to stand on no list leaves those on which it stands. -/
theorem changeLists_nil (g : Nat) {s : State} (h : Clean s) :
    changeLists g [] s = forEach (standsOn s g) (removeEntry g) s := by
  simp [changeLists, listsRemoved, listsAdded, readLists_clean _ h, forEach]

theorem depList_removeEntry (g u k : Nat) (s : State) :
    (removeEntry g u s).depList k = if k = u then setErase g (s.depList u) else s.depList k := by
  simp [removeEntry, State.depList, tableGet_tableSet]

theorem removeEntry_rck (g u : Nat) {s : State} (h : Clean s) : (removeEntry g u s).rck = s.rck :=
  writeUnits_rck (s := modDpx _ s) _ h

theorem forEach_removeEntry_rck (g : Nat) (l : List Nat) {s : State} (h : Clean s) :
    (forEach l (removeEntry g) s).rck = s.rck := by
  induction l generalizing s with
  | nil => rfl
  | cons u l ih =>
    have hstep := removeEntry_rck g u h
    exact (ih (clean_congr hstep h)).trans hstep

theorem mem_depList_forEach_removeEntry (g : Nat) (l : List Nat) (s : State) (u x : Nat) :
    x ∈ (forEach l (removeEntry g) s).depList u ↔ x ∈ s.depList u ∧ (u ∈ l → x ≠ g) := by
  induction l generalizing s with
  | nil => simp [forEach]
  | cons k l ih =>
    have hstep : forEach (k :: l) (removeEntry g) s = forEach l (removeEntry g) (removeEntry g k s) := rfl
    rw [hstep, ih, depList_removeEntry]
    by_cases hu : u = k
    · subst hu; simp [mem_setErase]; tauto
    · simp [hu]

/-- The lists of the index in canonical form. -/
def ListsCanonical (s : State) : Prop := tableWf [] s.dpx.lists = true ∧ ∀ u, (s.depList u).Nodup

theorem listsCanonical_of_canonical {s : State} (h : Canonical s) : ListsCanonical s := by
  obtain ⟨-, -, hwf, -, -, -, -, -, -, -, -, hrising⟩ := h
  refine ⟨hwf, fun u => ?_⟩
  rcases tableGet_listed [] s.dpx.lists u with hnil | hmem
  · rw [State.depList, hnil]; exact List.nodup_nil
  · exact nodup_of_rising (hrising _ hmem)

theorem listsCanonical_removeEntry (g u : Nat) {s : State} (h : ListsCanonical s) :
    ListsCanonical (removeEntry g u s) := by
  refine ⟨?_, fun k => ?_⟩
  · simpa [removeEntry] using tableWf_tableSet [] u _ s.dpx.lists h.1
  · rw [depList_removeEntry]
    split
    · exact (h.2 u).filter _
    · exact h.2 k

/-- The entry that a group leaves returns to the pool. -/
theorem poolExact_removeEntry {g u : Nat} {s : State} (h : ListsCanonical s) (hg : g ∈ s.depList u)
    (hp : PoolExact s) : PoolExact (removeEntry g u s) := by
  have hsum := tableSum_tableSet [] List.length rfl u (setErase g (s.depList u)) h.1
  have hlen := length_setErase (h.2 u) hg
  have hfree : (removeEntry g u s).dpx.free = s.dpx.free + 1 := by simp [removeEntry]
  have hlists : (removeEntry g u s).dpx.lists = tableSet [] u (setErase g (s.depList u)) s.dpx.lists := by
    simp [removeEntry, State.depList]
  simp only [PoolExact, tableSum, hfree, hlists, State.depList] at *
  omega

theorem poolExact_forEach_removeEntry {g : Nat} {l : List Nat} {s : State} (hl : l.Nodup) (h : ListsCanonical s)
    (hg : ∀ u ∈ l, g ∈ s.depList u) (hp : PoolExact s) : PoolExact (forEach l (removeEntry g) s) := by
  induction l generalizing s with
  | nil => exact hp
  | cons u l ih =>
    obtain ⟨hu, hl⟩ := List.nodup_cons.1 hl
    refine ih hl (listsCanonical_removeEntry g u h) (fun k hk => ?_)
      (poolExact_removeEntry h (hg u List.mem_cons_self) hp)
    rw [depList_removeEntry, if_neg (ne_of_mem_of_not_mem hk hu)]
    exact hg k (List.mem_cons_of_mem _ hk)

theorem mem_standsOn (s : State) (g u : Nat) : u ∈ standsOn s g ↔ u < 32 ∧ g ∈ s.depList u := by
  simp [standsOn, allUplinks, Config.uplinks]

/-- Off every list: what is left of a list, and the pool. -/
theorem mem_depList_changeLists_nil {g : Nat} {s : State} (h : Clean s) {u : Nat} (hu : u < 32) (x : Nat) :
    x ∈ (changeLists g [] s).depList u ↔ x ∈ s.depList u ∧ x ≠ g := by
  rw [changeLists_nil g h, mem_depList_forEach_removeEntry, mem_standsOn]
  refine and_congr_right fun hx => ⟨fun hne heq => ?_, fun hne _ => hne⟩
  exact hne ⟨hu, heq ▸ hx⟩ heq

theorem poolExact_changeLists_nil {g : Nat} {s : State} (h : Clean s) (hl : ListsCanonical s) (hp : PoolExact s) :
    PoolExact (changeLists g [] s) := by
  rw [changeLists_nil g h]
  refine poolExact_forEach_removeEntry (List.nodup_range.filter _) hl (fun u hu => ?_) hp
  exact ((mem_standsOn s g u).1 hu).2

/-! ### References released (R8, R16, R21) -/

theorem adj_modRefs (a : Nat) (f : Nat → Nat) (s : State) (x : Nat) :
    (modRefs a f s).adj x = if x = a then { s.adj a with refs := f (s.adj a).refs } else s.adj x := by
  rw [← adj_setAdj]
  simp [modRefs, modAdj, State.adj]

theorem adj_forEach_dropRef (l : List Nat) (s : State) (x : Nat) :
    (forEach l dropRef s).adj x = { s.adj x with refs := (s.adj x).refs - l.count x } := by
  induction l generalizing s with
  | nil => simp [forEach]
  | cons a l ih =>
    have hstep : forEach (a :: l) dropRef s = forEach l dropRef (dropRef a s) := rfl
    rw [hstep, ih, dropRef, adj_modRefs]
    by_cases hx : x = a
    · simp [hx, Nat.sub_sub, Nat.add_comm]
    · simp [hx, List.count_cons_of_ne (Ne.symm hx)]

theorem forEach_dropRef_rck (l : List Nat) {s : State} (h : Clean s) : (forEach l dropRef s).rck = s.rck := by
  induction l generalizing s with
  | nil => rfl
  | cons a l ih =>
    have hstep : (dropRef a s).rck = s.rck := writeUnits_rck (s := modAdj a _ s) _ h
    exact (ih (clean_congr hstep h)).trans hstep

theorem group_modReferrers (b : Option Nat) (f : Nat → Nat) (s : State) (x : Nat) :
    (modReferrers b f s).group x
      = if b = some x then { s.group x with referrers := f (s.group x).referrers } else s.group x := by
  cases b with
  | none => simp [modReferrers]
  | some b =>
    have hwrite : (modReferrers (some b) f s).group x
        = (modGroup b (fun r => { r with referrers := f r.referrers }) s).group x := by
      simp [modReferrers, State.group]
    rw [hwrite, modGroup, group_setGroup]
    by_cases hx : x = b
    · simp [hx]
    · simp [hx, Ne.symm hx]

theorem modReferrers_rck (b : Option Nat) (f : Nat → Nat) {s : State} (h : Clean s) :
    (modReferrers b f s).rck = s.rck := by
  cases b with
  | none => rfl
  | some b => exact writeUnits_rck (s := modGroup b _ s) _ h

theorem dropReferences_rck (r : Group) {s : State} (h : Clean s) : (dropReferences r s).rck = s.rck := by
  have hrefs := forEach_dropRef_rck (r.members.map (·.adj)) h
  exact (modReferrers_rck r.backup _ (clean_congr hrefs h)).trans hrefs

theorem adj_dropReferences (r : Group) (s : State) (x : Nat) :
    (dropReferences r s).adj x = { s.adj x with refs := (s.adj x).refs - (r.members.map (·.adj)).count x } := by
  rw [← adj_forEach_dropRef]
  simp [dropReferences, State.adj]

theorem group_dropReferences (r : Group) (s : State) (x : Nat) :
    (dropReferences r s).group x
      = { s.group x with referrers := (s.group x).referrers - if r.backup = some x then 1 else 0 } := by
  have hkept : (forEach (r.members.map (·.adj)) dropRef s).group x = s.group x := by simp [State.group]
  rw [dropReferences, dropReferrer, group_modReferrers, hkept]
  split <;> simp

/-! ### GROUP_DELETE over clean records (R21) -/

/-- GROUP_DELETE over clean records, its checks in their order. -/
theorem performGroupDelete_clean (group : Half) {s : State} (h : Clean s) (hf : s.rck.tableFault = false) :
    performGroupDelete group s =
      if 4096 ≤ group.toNat then refuse .range s
      else if (s.group group.toNat).status = .notInstalled then refuse .notInstalled s
      else if (s.group group.toNat).referrers ≠ 0 then refuse .inUse s
      else if s.rck.dependencyPending = true then refuse .damaged s
      else deleteGroup group.toNat s := by
  simp only [performGroupDelete, hf, Bool.false_eq_true, if_false, Config.groupCapacity, readField_clean _ h,
    readFields_clean false _ h]

theorem group_publish (g : Nat) (s : State) (x : Nat) :
    (publish g s).group x
      = if x = g then { s.group g with revision := ((s.group g).revision + 1) % 65536 } else s.group x := by
  rw [← group_setGroup]
  simp [publish, modGroup, wrap16, State.group]

theorem publish_rck (g : Nat) {s : State} (h : Clean s) : (publish g s).rck = s.rck :=
  writeUnits_rck (s := modGroup g _ s) _ h

/-- The part once the group to be deleted has released its references and left the lists (R21). -/
def released (g : Nat) (s : State) : State := changeLists g [] (dropReferences (s.group g) s)

theorem released_rck (g : Nat) {s : State} (h : Clean s) : (released g s).rck = s.rck := by
  have hdrop := dropReferences_rck (s.group g) h
  have hclean : Clean (dropReferences (s.group g) s) := clean_congr hdrop h
  rw [released, changeLists_nil g hclean, forEach_removeEntry_rck g _ hclean, hdrop]

/-- The part once the released group has left the depleted set and the rebuild list and its record is at reset but for
the revision and the referrer count, before the publish (R21). -/
def cleared (g : Nat) (s : State) : State :=
  modGroup g deletedGroup (leaveRebuild g (modTwr (fun t => { t with depleted := setErase g t.depleted }) s))

/-- The part after an accepted GROUP_DELETE (R21). -/
def deleted (g : Nat) (s : State) : State := publish g (cleared g (released g s))

theorem deleteGroup_eq (g : Nat) {s : State} (h : Clean s) :
    deleteGroup g s = { result := .revision ((deleted g s).group g).revision, state := deleted g s } := by
  have hclean : Clean (cleared g (released g s)) := by
    simpa [Clean, cleared, leaveRebuild, released_rck g h] using h
  have hwrite := writeUnits_clean (groupUnits g) hclean
  simp only [cleared, released] at hwrite
  simp only [deleteGroup, deleted, cleared, released, hwrite]

theorem group_deleted (g : Nat) (s : State) (x : Nat) :
    (deleted g s).group x =
      if x = g then
        { revision := ((s.group g).revision + 1) % 65536
          referrers := (s.group g).referrers - if (s.group g).backup = some g then 1 else 0 }
      else
        { s.group x with referrers := (s.group x).referrers - if (s.group g).backup = some x then 1 else 0 } := by
  have hrel (y : Nat) : (leaveRebuild g (modTwr (fun t => { t with depleted := setErase g t.depleted })
      (released g s))).group y
      = { s.group y with referrers := (s.group y).referrers - if (s.group g).backup = some y then 1 else 0 } := by
    rw [← group_dropReferences]
    simp [released, State.group]
  simp only [deleted, group_publish, cleared, modGroup, group_setGroup, hrel, if_true]
  split <;> rfl

theorem adj_deleted (g : Nat) (s : State) (x : Nat) :
    (deleted g s).adj x = { s.adj x with refs := (s.adj x).refs - ((s.group g).members.map (·.adj)).count x } := by
  rw [← adj_dropReferences]
  simp [deleted, cleared, released, State.adj]

theorem deleted_rck (g : Nat) {s : State} (h : Clean s) :
    (deleted g s).rck = { s.rck with rebuildList := setErase g s.rck.rebuildList } := by
  have hcleared : (cleared g (released g s)).rck = { s.rck with rebuildList := setErase g s.rck.rebuildList } := by
    simp [cleared, leaveRebuild, released_rck g h]
  rw [deleted, publish_rck g (by rw [Clean, hcleared]; exact h), hcleared]

/-- What an accepted GROUP_DELETE leaves to the others. -/
theorem deleted_kept (g : Nat) {s : State} (h : Clean s) :
    let u := deleted g s
    u.pending = s.pending ∧ u.now = s.now ∧ u.draws = s.draws ∧ u.fsl = s.fsl ∧ u.rsu = s.rsu ∧ u.rwk = s.rwk
      ∧ u.uma = s.uma ∧ u.evu = s.evu ∧ u.cme = s.cme ∧ u.out = s.out ∧ u.nfu = s.nfu
      ∧ u.twr = { s.twr with depleted := setErase g s.twr.depleted } := by
  have hdrop : Clean (dropReferences (s.group g) s) := clean_congr (dropReferences_rck _ h) h
  simp [deleted, cleared, released, changeLists_nil g hdrop]

theorem tableChanged_deleted (g : Nat) {s : State} (h : Clean s) (hw : WalkerServed s) :
    TableChanged s (deleted g s) := by
  obtain ⟨hpending, hnow, hdraws, hfsl, hrsu, hrwk, huma, hevu, hcme, hout, -, htwr⟩ := deleted_kept g h
  have hrck := deleted_rck g h
  have hcheck : (deleted g s).rck = { s.rck with rebuildList := (deleted g s).rck.rebuildList } := by rw [hrck]
  refine ⟨state_eq_of_kept hpending hnow hdraws hfsl hrsu hrwk huma hevu hcme hout, hcheck, by rw [htwr],
    served_of_rebuildList hw hrwk huma hcheck fun hnil => ?_⟩
  rw [hrck]
  simp [hnil, setErase]

/-- The lists and the pool after an accepted GROUP_DELETE (R14, R21). -/
theorem deleted_lists (g : Nat) {s : State} (h : Clean s) (hl : ListsCanonical s) :
    let u := deleted g s
    (∀ k, k < 32 → ∀ x, x ∈ u.depList k ↔ x ∈ s.depList k ∧ x ≠ g) ∧ (PoolExact s → PoolExact u) := by
  have hdrop : Clean (dropReferences (s.group g) s) := clean_congr (dropReferences_rck _ h) h
  have hdpx : (dropReferences (s.group g) s).dpx = s.dpx := by simp
  have hu : (deleted g s).dpx = (changeLists g [] (dropReferences (s.group g) s)).dpx := by
    simp [deleted, cleared, released]
  refine ⟨fun k hk x => ?_, fun hp => ?_⟩
  · have hmem := mem_depList_changeLists_nil hdrop hk (g := g) x
    simpa only [State.depList, hu, hdpx] using hmem
  · have hcanonical : ListsCanonical (dropReferences (s.group g) s) := by
      simpa only [ListsCanonical, State.depList, hdpx] using hl
    have hpool := poolExact_changeLists_nil (g := g) hdrop hcanonical (by simpa only [PoolExact, hdpx] using hp)
    simpa only [PoolExact, hu] using hpool

/-- A started table command that deletes a group and answers its revision. -/
theorem tableRow_deleteGroup {tag : Half} {c : HostCmd} {s : State} {g : Nat} (hc : isTable c = true)
    (hfit : c.fits = true) (hs : TableStarted tag c s) (hw : WalkerServed s) (h : Clean s)
    (hf : s.rck.tableFault = false) (hl : ListsCanonical s)
    (ho : perform c (underway tag c s) = deleteGroup g (underway tag c s)) :
    ∃ t, exec (rowOf tag c) s = .next t
      ∧ TableAnswered (answering tag c.code .ok (.revision (((s.group g).revision + 1) % 65536))) [] s t
      ∧ (∀ x, t.group x =
          if x = g then
            { revision := ((s.group g).revision + 1) % 65536
              referrers := (s.group g).referrers - if (s.group g).backup = some g then 1 else 0 }
          else
            { s.group x with referrers := (s.group x).referrers - if (s.group g).backup = some x then 1 else 0 })
      ∧ (∀ x, t.adj x = { s.adj x with refs := (s.adj x).refs - ((s.group g).members.map (·.adj)).count x })
      ∧ (∀ u, u < 32 → ∀ x, x ∈ t.depList u ↔ x ∈ s.depList u ∧ x ≠ g)
      ∧ (∀ x, x ∈ t.twr.depleted ↔ x ∈ s.twr.depleted ∧ x ≠ g)
      ∧ (∀ x, x ∈ t.rck.rebuildList ↔ x ∈ s.rck.rebuildList ∧ x ≠ g)
      ∧ (PoolExact s → PoolExact t) := by
  have h' : Clean (underway tag c s) := h
  have hgroup := group_deleted g (underway tag c s)
  have hrevision : ((deleted g (underway tag c s)).group g).revision = ((s.group g).revision + 1) % 65536 :=
    (congrArg Group.revision (hgroup g)).trans (by rw [if_pos rfl]; rfl)
  rw [deleteGroup_eq g h', hrevision] at ho
  obtain ⟨-, -, -, -, -, -, -, -, -, -, hnfu, htwr⟩ := deleted_kept g h'
  obtain ⟨hlists, hpool⟩ := deleted_lists g h' hl
  obtain ⟨t, hexec, hans, hsame⟩ :=
    tableRow_quiet hc hfit hs hf ho (tableChanged_deleted g h' (underway_served hw)) hnfu
  refine ⟨t, hexec, hans, fun x => ?_, fun x => ?_, fun u hu x => ?_, fun x => ?_, fun x => ?_, fun hp => ?_⟩
  · rw [State.group, hsame.groups]
    exact hgroup x
  · rw [State.adj, hsame.adjs]
    exact adj_deleted g (underway tag c s) x
  · rw [State.depList, hsame.dpx]
    exact hlists u hu x
  · rw [hsame.depleted, htwr]
    exact mem_setErase g x _
  · rw [hsame.rck, deleted_rck g h']
    exact mem_setErase g x _
  · rw [PoolExact, hsame.dpx]
    exact hpool hp

/-- Settles O23: the checks of GROUP_DELETE read the record as it stands, and an accepted one releases the references,
the lists, the depleted set and the rebuild list in turn (R21). -/
theorem groupDeleteReleasesEverything : Obligations.GroupDeleteReleasesEverything := by
  intro tag group s hs hw hclean hf hcanon _ i g old
  have hchecks := performGroupDelete_clean (s := underway tag (.groupDelete group) s) group hclean hf
  refine ⟨fun hr => ?_, fun hg hst => ?_, fun hg hst hin => ?_, fun hg hst hin hp => ?_, fun hg hst hin hp => ?_⟩
  · exact tableRow_refused rfl rfl hs hw hf (hchecks.trans (if_pos hr))
  all_goals replace hchecks := hchecks.trans (if_neg (Nat.not_le.2 hg))
  · exact tableRow_refused rfl rfl hs hw hf (hchecks.trans (if_pos hst))
  all_goals replace hchecks := hchecks.trans (if_neg hst)
  · exact tableRow_refused rfl rfl hs hw hf (hchecks.trans (if_pos hin))
  all_goals replace hchecks := hchecks.trans (if_neg (not_not.2 hin))
  · exact tableRow_refused rfl rfl hs hw hf (hchecks.trans (if_pos hp))
  obtain ⟨t, hexec, hans, hgroup, hrest⟩ := tableRow_deleteGroup rfl rfl hs hw hclean hf
    (listsCanonical_of_canonical hcanon) (hchecks.trans (if_neg (Bool.eq_false_iff.1 hp)))
  have hcount : (s.group g).referrers = 0 := hin
  refine ⟨t, hexec, hans, ?_, fun x hx => (hgroup x).trans (if_neg hx), hrest⟩
  exact (hgroup g).trans ((if_pos rfl).trans (by rw [hcount, Nat.zero_sub]))

end Sys2Proof.Machine

namespace Sys2Proof.Machine

open Sys2Proof

/-! ### Counts read by index -/

/-- A list mapped, as read index by index. -/
theorem map_getD_range {α : Type} (f : Nat → α) (cs : List Nat) :
    (List.range cs.length).map (fun i => f (cs.getD i 0)) = cs.map f :=
  List.ext_getElem (by simp) fun i _ h => by simp at h; simp [h]

theorem getD_mem {cs : List Nat} {i : Nat} (h : i < cs.length) : cs.getD i 0 ∈ cs :=
  List.getD_eq_getElem cs 0 h ▸ List.getElem_mem h

theorem exists_getD_of_mem {cs : List Nat} {c : Nat} (h : c ∈ cs) : ∃ i < cs.length, cs.getD i 0 = c := by
  obtain ⟨i, hi, hc⟩ := List.mem_iff_getElem.1 h
  exact ⟨i, hi, (List.getD_eq_getElem cs 0 hi).trans hc⟩

/-- A bound on every count bounds what any index reads, a missing count too. -/
theorem getD_le {cs : List Nat} {n : Nat} (h : ∀ c ∈ cs, c ≤ n) (i : Nat) : cs.getD i 0 ≤ n := by
  rcases Nat.lt_or_ge i cs.length with hi | hi
  · exact h _ (getD_mem hi)
  · rw [List.getD_eq_default cs 0 hi]
    exact Nat.zero_le n

theorem getD_le_sum (cs : List Nat) (i : Nat) : cs.getD i 0 ≤ cs.sum := getD_le (fun _ => List.le_sum_of_mem) i

theorem sum_pos_of_one_le {cs : List Nat} (hne : cs ≠ []) (h : ∀ c ∈ cs, 1 ≤ c) : 0 < cs.sum := by
  obtain ⟨c, hc⟩ := List.exists_mem_of_ne_nil cs hne
  exact (h c hc).trans (List.le_sum_of_mem hc)

end Sys2Proof.Machine

namespace Sys2Proof.Machine

open Sys2Proof

/-! ### Floors and remainders (R27) -/

/-- The division that both the floors and the remainders come from, summed over the weights. -/
theorem sum_div_mul_add_sum_mod (B D : Nat) (ws : List Nat) :
    (ws.map (fun w => B * w / D)).sum * D + (ws.map (fun w => B * w % D)).sum = B * ws.sum := by
  induction ws with
  | nil => simp
  | cons w ws ih =>
    have hw := Nat.div_add_mod' (B * w) D
    simp only [List.map_cons, List.sum_cons, Nat.add_mul, Nat.mul_add]
    omega

theorem sum_floors_mul_add_sum_remainders (ws : List Nat) (B : Nat) :
    (floors ws B).sum * ws.sum + (remainders ws B).sum = B * ws.sum :=
  sum_div_mul_add_sum_mod B ws.sum ws

theorem length_remainders (ws : List Nat) (B : Nat) : (remainders ws B).length = ws.length := List.length_map _

theorem getD_floors (ws : List Nat) (B i : Nat) : (floors ws B).getD i 0 = B * ws.getD i 0 / ws.sum := by
  simpa [floors] using List.getD_map ws 0 (fun w => B * w / ws.sum) (n := i)

theorem getD_remainders (ws : List Nat) (B i : Nat) : (remainders ws B).getD i 0 = B * ws.getD i 0 % ws.sum := by
  simpa [remainders] using List.getD_map ws 0 (fun w => B * w % ws.sum) (n := i)

/-- The buckets the floors leave (R27). -/
def leftOver (ws : List Nat) (B : Nat) : Nat := B - (floors ws B).sum

theorem sum_floors_le {ws : List Nat} (B : Nat) (hW : 0 < ws.sum) : (floors ws B).sum ≤ B :=
  Nat.le_of_mul_le_mul_right (Nat.le.intro (sum_floors_mul_add_sum_remainders ws B)) hW

/-- The remainders make up the buckets the floors leave. -/
theorem sum_remainders {ws : List Nat} (B : Nat) : (remainders ws B).sum = leftOver ws B * ws.sum := by
  rw [leftOver, Nat.sub_mul, ← sum_floors_mul_add_sum_remainders, Nat.add_sub_cancel_left]

/-- Remainders below `D`, those that are not 0 counted. -/
theorem sum_add_length_filter_le {D : Nat} {rs : List Nat} (h : ∀ r ∈ rs, r < D) :
    rs.sum + (rs.filter (fun r => decide (r ≠ 0))).length ≤ (rs.filter (fun r => decide (r ≠ 0))).length * D := by
  induction rs with
  | nil => simp
  | cons r rs ih =>
    obtain ⟨hr, hrs⟩ := List.forall_mem_cons.1 h
    have := ih hrs
    by_cases h0 : r = 0
    · simpa [h0] using this
    · simp only [List.sum_cons, List.filter_cons, h0, ne_eq, not_false_eq_true, decide_true, if_true, List.length_cons,
        Nat.add_mul, Nat.one_mul] at this ⊢
      omega

/-- Where a bucket is left, more remainders than buckets left are not 0. -/
theorem leftOver_lt {ws : List Nat} {B : Nat} (hW : 0 < ws.sum) (hR : 0 < leftOver ws B) :
    leftOver ws B < ((remainders ws B).filter (fun r => decide (r ≠ 0))).length := by
  have hlt : ∀ r ∈ remainders ws B, r < ws.sum := List.forall_mem_map.2 fun w _ => Nat.mod_lt _ hW
  have hsum := sum_add_length_filter_le hlt
  rw [sum_remainders] at hsum
  generalize ((remainders ws B).filter (fun r => decide (r ≠ 0))).length = N at hsum ⊢
  have hpos : 0 < N := by
    have := Nat.mul_pos hR hW
    exact Nat.pos_of_ne_zero fun h0 => by simp [h0] at hsum; omega
  exact Nat.lt_of_mul_lt_mul_right (a := ws.sum) (by omega)

theorem leftOver_lt_length {ws : List Nat} (B : Nat) (hW : 0 < ws.sum) : leftOver ws B < ws.length := by
  rcases Nat.eq_zero_or_pos (leftOver ws B) with h0 | hR
  · rw [h0]
    exact List.length_pos_iff.2 fun h => by simp [h] at hW
  · simpa only [length_remainders] using (leftOver_lt hW hR).trans_le (List.length_filter_le _ _)

/-! ### The ranking by remainder (R27) -/

/-- Member `j` stands before member `i`: a larger remainder, or an equal one at a lower index. -/
def standsBefore (rs : List Nat) (i j : Nat) : Bool :=
  decide (rs.getD i 0 < rs.getD j 0) || (decide (rs.getD j 0 = rs.getD i 0) && decide (j < i))

theorem standsBefore_iff (rs : List Nat) (i j : Nat) :
    standsBefore rs i j = true ↔ rs.getD i 0 < rs.getD j 0 ∨ (rs.getD j 0 = rs.getD i 0 ∧ j < i) := by
  simp [standsBefore]

theorem rankOf_eq_card (rs : List Nat) (i : Nat) :
    rankOf rs i = ((Finset.range rs.length).filter (fun j => standsBefore rs i j = true)).card := by
  have hbool : (fun j => decide (standsBefore rs i j = true)) = standsBefore rs i :=
    funext fun _ => Bool.decide_eq_true
  exact (congrArg (fun p => ((List.range rs.length).filter p).length) hbool).symm

/-- A member ranks above those it stands before. -/
theorem rankOf_lt_of_standsBefore {rs : List Nat} {i j : Nat} (hj : j < rs.length) (h : standsBefore rs i j = true) :
    rankOf rs j < rankOf rs i := by
  rw [rankOf_eq_card, rankOf_eq_card]
  refine Finset.card_lt_card (Finset.ssubset_iff_of_subset (fun k hk => ?_) |>.2 ⟨j, ?_, ?_⟩)
  · simp only [Finset.mem_filter, standsBefore_iff] at hk h ⊢
    exact ⟨hk.1, by omega⟩
  · simp [hj, h]
  · simp [standsBefore_iff]

theorem rankOf_lt_length {rs : List Nat} {i : Nat} (hi : i < rs.length) : rankOf rs i < rs.length := by
  rw [rankOf_eq_card]
  calc _ < (Finset.range rs.length).card :=
        Finset.card_lt_card (Finset.filter_ssubset.2 ⟨i, by simpa using hi, by simp [standsBefore_iff]⟩)
    _ = rs.length := Finset.card_range _

/-- No two members share a rank. -/
theorem rankOf_injOn (rs : List Nat) : Set.InjOn (rankOf rs) (Finset.range rs.length) := by
  intro i hi j hj hrank
  simp only [Finset.coe_range, Set.mem_Iio] at hi hj
  by_contra hne
  have htotal : standsBefore rs i j = true ∨ standsBefore rs j i = true := by
    simp only [standsBefore_iff]
    omega
  rcases htotal with h | h
  · exact (rankOf_lt_of_standsBefore hj h).ne' hrank
  · exact (rankOf_lt_of_standsBefore hi h).ne hrank

/-- The ranks are the numbers below the number of members. -/
theorem image_rankOf (rs : List Nat) : (Finset.range rs.length).image (rankOf rs) = Finset.range rs.length := by
  refine Finset.eq_of_subset_of_card_le (Finset.image_subset_iff.2 fun i hi => ?_) ?_
  · simpa using rankOf_lt_length (by simpa using hi)
  · rw [Finset.card_image_of_injOn (rankOf_injOn rs)]

/-- `R` members rank among the first `R`. -/
theorem card_rankOf_lt {rs : List Nat} {R : Nat} (hR : R ≤ rs.length) :
    ((Finset.range rs.length).filter (fun i => rankOf rs i < R)).card = R := by
  have hinj : Set.InjOn (rankOf rs) ((Finset.range rs.length).filter (fun i => rankOf rs i < R)) :=
    (rankOf_injOn rs).mono (Finset.coe_subset.2 (Finset.filter_subset _ _))
  have hfirst : (Finset.range rs.length).filter (· < R) = Finset.range R := by
    ext k
    simp only [Finset.mem_filter, Finset.mem_range]
    omega
  have himage := Finset.filter_image (s := Finset.range rs.length) (f := rankOf rs) (p := (· < R))
  rw [← Finset.card_image_of_injOn hinj, ← himage, image_rankOf, hfirst, Finset.card_range]

/-- A member whose remainder is 0 ranks below every member whose remainder is not. -/
theorem length_filter_le_rankOf {rs : List Nat} {i : Nat} (h : rs.getD i 0 = 0) :
    (rs.filter (fun r => decide (r ≠ 0))).length ≤ rankOf rs i := by
  have hrs : rs = (List.range rs.length).map (rs.getD · 0) := by simpa using (map_getD_range id rs).symm
  conv_lhs => rw [hrs, List.filter_map, List.length_map]
  refine (List.monotone_filter_right _ fun j hj => ?_).length_le
  simp only [Function.comp_apply, decide_eq_true_eq] at hj
  exact (standsBefore_iff rs i j).2 (.inl (h.trans_lt (Nat.pos_of_ne_zero hj)))

/-! ### Shares (R27) -/

theorem length_sharedCounts (ws : List Nat) (B : Nat) : (sharedCounts ws B).length = ws.length := by
  simp [sharedCounts]

theorem getD_sharedCounts (ws : List Nat) (B : Nat) {i : Nat} (hi : i < ws.length) :
    (sharedCounts ws B).getD i 0
      = B * ws.getD i 0 / ws.sum + if rankOf (remainders ws B) i < leftOver ws B then 1 else 0 := by
  rw [← getD_floors, List.getD_eq_getElem _ _ (by rwa [length_sharedCounts])]
  simp only [sharedCounts, List.getElem_map, List.getElem_range]
  rfl

theorem sum_sharedCounts {ws : List Nat} (B : Nat) (hW : 0 < ws.sum) : (sharedCounts ws B).sum = B := by
  have hfloors : ((List.range ws.length).map (fun i => (floors ws B).getD i 0)).sum = (floors ws B).sum := by
    simpa [floors] using congrArg List.sum (map_getD_range id (floors ws B))
  have hR : leftOver ws B ≤ (remainders ws B).length := by
    simpa only [length_remainders] using (leftOver_lt_length B hW).le
  have hextra : ((List.range ws.length).map
      (fun i => if rankOf (remainders ws B) i < leftOver ws B then 1 else 0)).sum = leftOver ws B := by
    have hcard := card_rankOf_lt hR
    rw [Finset.card_filter, length_remainders] at hcard
    exact hcard
  calc (sharedCounts ws B).sum = (floors ws B).sum + leftOver ws B := by
        rw [← hfloors, ← hextra, ← List.sum_map_add]
        rfl
    _ = B := Nat.add_sub_of_le (sum_floors_le B hW)

/-- The ranking written out from the weights, as R27 gives it. -/
theorem rankOf_remainders (ws : List Nat) (B i : Nat) :
    rankOf (remainders ws B) i = ((List.range ws.length).filter (fun j => decide
      (B * ws.getD i 0 % ws.sum < B * ws.getD j 0 % ws.sum
        ∨ (B * ws.getD j 0 % ws.sum = B * ws.getD i 0 % ws.sum ∧ j < i)))).length := by
  simp only [rankOf, getD_remainders, length_remainders, Bool.decide_or, Bool.decide_and]

theorem length_filter_remainders (ws : List Nat) (B : Nat) :
    ((remainders ws B).filter (fun r => decide (r ≠ 0))).length
      = ((List.range ws.length).filter (fun i => decide (B * ws.getD i 0 % ws.sum ≠ 0))).length := by
  rw [remainders, ← map_getD_range, List.filter_map, List.length_map]
  rfl

/-- Settles O46: the remainders sum to the buckets left times the sum of the weights, so fewer buckets are left than
remainders are not 0, and the ranking is strict, so as many members receive one more (R27). -/
theorem largestRemainderShares : Obligations.LargestRemainderShares := by
  intro ws B hne hlen hws W floor rem R before
  have hW1 : 1 ≤ ws.sum := sum_pos_of_one_le hne fun w hw => (hws w hw).1
  have hW2 : ws.sum ≤ 4080 := by
    have := List.sum_le_card_nsmul ws 255 fun w hw => (hws w hw).2
    simp only [smul_eq_mul] at this
    omega
  have hR : R = leftOver ws B := by
    simp only [R, floor, W, leftOver, floors, map_getD_range (fun w => B * w / ws.sum)]
  have hrem : (List.range ws.length).map rem = remainders ws B := map_getD_range (fun w => B * w % ws.sum) ws
  have hrank (i : Nat) : ((List.range ws.length).filter (fun j => decide (before i j))).length
      = rankOf (remainders ws B) i := (rankOf_remainders ws B i).symm
  simp only [hrank, hrem, hR]
  refine ⟨hW1, hW2, Nat.le_sub_one_of_lt (leftOver_lt_length B hW1), length_sharedCounts ws B,
    sum_sharedCounts B hW1, sum_remainders B, fun hpos => ?_, fun i hi => ⟨getD_sharedCounts ws B hi, fun hlt h0 => ?_⟩⟩
  · exact (leftOver_lt hW1 hpos).trans_eq (length_filter_remainders ws B)
  · have hlast := length_filter_le_rankOf ((getD_remainders ws B i).trans h0)
    have hmore := leftOver_lt hW1 (Nat.zero_lt_of_lt hlt)
    omega

end Sys2Proof.Machine

namespace Sys2Proof.Machine

open Sys2Proof

/-! ### The donor (R28) -/

theorem getD_set (cs : List Nat) (d v k : Nat) :
    (cs.set d v).getD k 0 = if k = d ∧ d < cs.length then v else cs.getD k 0 := by
  simp only [List.getD_eq_getElem?_getD, List.getElem?_set, eq_comm (a := k), ite_and]
  split
  · split <;> simp_all
  · rfl

/-- Writing one count exchanges it in the sum. -/
theorem sum_set_add {cs : List Nat} {d : Nat} (v : Nat) (hd : d < cs.length) :
    (cs.set d v).sum + cs.getD d 0 = cs.sum + v := by
  have hperm := (cs.getD_set_perm_cons d v).sum_eq
  rw [List.getElem?_eq_getElem hd, Option.getD_some, List.sum_cons, List.sum_cons] at hperm
  rw [List.getD_eq_getElem _ _ hd]
  omega

/-- The donor holds the largest count, and among equal counts it is the last. -/
theorem donor_largest {cs : List Nat} (hne : cs ≠ []) :
    donor cs < cs.length ∧ ∀ k, k < cs.length →
      cs.getD k 0 < cs.getD (donor cs) 0 ∨ (cs.getD k 0 = cs.getD (donor cs) 0 ∧ k ≤ donor cs) := by
  induction cs with
  | nil => exact absurd rfl hne
  | cons c cs ih =>
    rw [donor]
    split
    next hall =>
      refine ⟨Nat.zero_lt_succ _, fun k hk => ?_⟩
      cases k with
      | zero => exact .inr ⟨rfl, le_rfl⟩
      | succ k =>
        have hlt := List.all_eq_true.1 hall _ (getD_mem (Nat.lt_of_succ_lt_succ hk))
        exact .inl (by simpa using hlt)
    next hall =>
      obtain ⟨c', hc', hle⟩ : ∃ c' ∈ cs, c ≤ c' := by simpa using hall
      obtain ⟨hd, hmax⟩ := ih (List.ne_nil_of_mem hc')
      refine ⟨Nat.succ_lt_succ hd, fun k hk => ?_⟩
      cases k with
      | zero =>
        obtain ⟨j, hj, rfl⟩ := exists_getD_of_mem hc'
        have := hmax j hj
        simp only [List.getD_cons_zero, List.getD_cons_succ]
        omega
      | succ k =>
        simp only [List.getD_cons_succ, Nat.add_le_add_iff_right]
        exact hmax k (Nat.lt_of_succ_lt_succ hk)

/-- Where one of at most 16 members is without a bucket and the others share at least 16, the donor holds 2. -/
theorem two_le_donor {cs : List Nat} {i : Nat} (hi : i < cs.length) (hlen : cs.length ≤ 16) (hsum : 16 ≤ cs.sum)
    (h0 : cs.getD i 0 = 0) : 2 ≤ cs.getD (donor cs) 0 := by
  obtain ⟨-, hmax⟩ := donor_largest (List.ne_nil_of_length_pos (Nat.zero_lt_of_lt hi))
  by_contra hlt
  have hone : ∀ c ∈ cs.set i 1, c ≤ 1 := fun c hc => by
    rcases List.mem_or_eq_of_mem_set hc with hc | rfl
    · obtain ⟨j, hj, rfl⟩ := exists_getD_of_mem hc
      have := hmax j hj
      omega
    · exact le_rfl
  have hcap := List.sum_le_card_nsmul _ 1 hone
  have hset := sum_set_add 1 hi
  simp only [List.length_set, smul_eq_mul] at hcap
  omega

/-! ### The visits (R28) -/

theorem giveOne_of_ne {cs : List Nat} {i : Nat} (h : cs.getD i 0 ≠ 0) : giveOne cs i = cs := if_neg h

theorem giveOne_of_eq {cs : List Nat} {i : Nat} (h : cs.getD i 0 = 0) :
    giveOne cs i = (cs.set (donor cs) (cs.getD (donor cs) 0 - 1)).set i 1 := if_pos h

/-- The counts of `n` members that hold `B` buckets, those below `i` visited. -/
structure VisitedBelow (n B i : Nat) (cs : List Nat) : Prop where
  length : cs.length = n
  sum : cs.sum = B
  holds : ∀ k, k < i → 1 ≤ cs.getD k 0

/-- A visit leaves its member with a bucket and takes none from a member that has only one. -/
theorem visitedBelow_giveOne {n B i : Nat} {cs : List Nat} (hn : n ≤ 16) (hB : 16 ≤ B) (hi : i < n)
    (h : VisitedBelow n B i cs) : VisitedBelow n B (i + 1) (giveOne cs i) := by
  obtain ⟨rfl, rfl, hvisited⟩ := h
  by_cases h0 : cs.getD i 0 = 0
  · obtain ⟨hd, -⟩ := donor_largest (List.ne_nil_of_length_pos (Nat.zero_lt_of_lt hi))
    have htwo := two_le_donor hi hn hB h0
    have hne : i ≠ donor cs := fun h => by rw [← h] at htwo; omega
    have htake := sum_set_add (cs.getD (donor cs) 0 - 1) hd
    have hgive := sum_set_add (cs := cs.set (donor cs) (cs.getD (donor cs) 0 - 1)) 1 (by simpa using hi)
    rw [getD_set, if_neg (fun h => hne h.1), h0] at hgive
    rw [giveOne_of_eq h0]
    refine ⟨by simp, by omega, fun k hk => ?_⟩
    rw [getD_set, getD_set]
    by_cases hki : k = i
    · simp [hki, hi]
    · have := hvisited k (by omega)
      simp only [hki, false_and, if_false]
      split <;> omega
  · rw [giveOne_of_ne h0]
    refine ⟨rfl, rfl, fun k hk => ?_⟩
    rcases Nat.lt_succ_iff_lt_or_eq.1 hk with hk | rfl
    · exact hvisited k hk
    · omega

theorem visitedBelow_foldl {n B : Nat} {cs : List Nat} (hn : n ≤ 16) (hB : 16 ≤ B) (hlen : cs.length = n)
    (hsum : cs.sum = B) {i : Nat} (hi : i ≤ n) : VisitedBelow n B i ((List.range i).foldl giveOne cs) := by
  induction i with
  | zero => exact ⟨hlen, hsum, fun k hk => absurd hk (Nat.not_lt_zero k)⟩
  | succ i ih =>
    rw [List.range_succ, List.foldl_append, List.foldl_cons, List.foldl_nil]
    exact visitedBelow_giveOne hn hB hi (ih (Nat.le_of_succ_le hi))

/-- Every member visited, the home counts hold all the buckets, one at least each. -/
theorem visitedBelow_homeCounts {ws : List Nat} {B : Nat} (hlen : ws.length ≤ 16) (hW : 0 < ws.sum) (hB : 16 ≤ B) :
    VisitedBelow ws.length B ws.length (homeCounts ws B) :=
  visitedBelow_foldl hlen hB (length_sharedCounts ws B) (sum_sharedCounts B hW) le_rfl

/-- Settles O47: at most 16 members share at least 16 buckets, so while one is without a bucket the donor holds two,
and no visit undoes an earlier one (R28). -/
theorem everyMemberHoldsABucket : Obligations.EveryMemberHoldsABucket := by
  refine ⟨fun _ _ => rfl, fun cs i hi hlen hsum => ⟨giveOne_of_ne, fun h0 => ?_⟩, fun ws B hne hlen hws hB => ?_⟩
  · obtain ⟨hd, hmax⟩ := donor_largest (List.ne_nil_of_length_pos (Nat.zero_lt_of_lt hi))
    exact ⟨donor cs, hd, two_le_donor hi hlen hsum h0, hmax, giveOne_of_eq h0⟩
  · obtain ⟨hlength, hsum, hholds⟩ := visitedBelow_homeCounts hlen (sum_pos_of_one_le hne hws) hB
    refine ⟨hlength, hsum, fun c hc => ⟨?_, hsum ▸ List.le_sum_of_mem hc⟩, fun hone => ?_⟩
    · obtain ⟨i, hi, rfl⟩ := exists_getD_of_mem hc
      exact hholds i (hlength ▸ hi)
    · obtain ⟨c, hc⟩ := List.length_eq_one_iff.1 (hlength.trans hone)
      rw [hc] at hsum ⊢
      simpa using hsum

end Sys2Proof.Machine

namespace Sys2Proof.Machine

open Sys2Proof

/-! ### Placement (R29 to R31) -/

/-- What pass `p` hands out: up to `turn` indices to each member still owed buckets (R30, R31). -/
def placedInPass (turn : Nat) (cs : List Nat) (p : Nat) : List Nat :=
  (List.range cs.length).flatMap (fun i => List.replicate (min turn (cs.getD i 0 - turn * p)) i)

theorem passTakes_eq_flatMap (turn j : Nat) (cs : List Nat) :
    passTakes turn j cs
      = (List.range cs.length).flatMap (fun i => List.replicate (min turn (cs.getD i 0)) (j + i)) := by
  induction cs generalizing j with
  | nil => rfl
  | cons c cs ih =>
    simp [passTakes, ih, List.range_succ_eq_map, List.flatMap_map, Nat.add_assoc, Nat.add_comm 1]

theorem getD_map_sub (turn i : Nat) (cs : List Nat) : (cs.map (· - turn)).getD i 0 = cs.getD i 0 - turn := by
  simpa using List.getD_map cs 0 (· - turn) (n := i)

/-- The pass after `p` sees the counts less one turn. -/
theorem placedInPass_map_sub (turn : Nat) (cs : List Nat) (p : Nat) :
    placedInPass turn (cs.map (· - turn)) p = placedInPass turn cs (p + 1) := by
  simp only [placedInPass, List.length_map, getD_map_sub, Nat.sub_sub, Nat.mul_succ, Nat.add_comm turn]

theorem passes_eq_flatMap (turn fuel : Nat) (cs : List Nat) :
    passes turn fuel cs = (List.range fuel).flatMap (placedInPass turn cs) := by
  induction fuel generalizing cs with
  | zero => rfl
  | succ fuel ih =>
    have hfirst : passTakes turn 0 cs = placedInPass turn cs 0 := by simp [passTakes_eq_flatMap, placedInPass]
    have hrest : placedInPass turn (cs.map (· - turn)) = placedInPass turn cs ∘ Nat.succ :=
      funext (placedInPass_map_sub turn cs)
    rw [passes, ih, hfirst, hrest, List.range_succ_eq_map, List.flatMap_cons, List.flatMap_map]
    rfl

theorem getD_le_foldl_max (cs : List Nat) (i : Nat) : cs.getD i 0 ≤ cs.foldl max 0 := by
  rw [List.foldl_eq_foldr]
  exact getD_le (fun _ hc => List.le_max_of_le hc le_rfl) i

theorem foldl_max_le_sum (cs : List Nat) : cs.foldl max 0 ≤ cs.sum := by
  rw [List.foldl_eq_foldr]
  exact List.max_le_of_forall_le cs _ fun c hc => List.le_sum_of_mem hc

/-- After as many passes as the largest count nothing is owed. -/
theorem placedInPass_eq_nil {turn : Nat} {cs : List Nat} {p : Nat} (ht : 1 ≤ turn) (hp : cs.foldl max 0 ≤ p) :
    placedInPass turn cs p = [] := by
  refine List.flatMap_eq_nil_iff.2 fun i _ => ?_
  have hcount : cs.getD i 0 ≤ turn * p :=
    ((getD_le_foldl_max cs i).trans hp).trans (Nat.le_mul_of_pos_left p ht)
  rw [Nat.sub_eq_zero_of_le hcount, Nat.min_zero, List.replicate_zero]

/-- The passes that place anything are as many as the largest count. -/
theorem passes_sum_eq {turn : Nat} (cs : List Nat) (ht : 1 ≤ turn) :
    passes turn cs.sum cs = (List.range (cs.foldl max 0)).flatMap (placedInPass turn cs) := by
  obtain ⟨k, hk⟩ := Nat.exists_eq_add_of_le (foldl_max_le_sum cs)
  have hlate : ((List.range k).map (cs.foldl max 0 + ·)).flatMap (placedInPass turn cs) = [] := by
    rw [List.flatMap_map]
    exact List.flatMap_eq_nil_iff.2 fun p _ => placedInPass_eq_nil ht (Nat.le_add_right _ p)
  rw [passes_eq_flatMap, hk, List.range_add, List.flatMap_append, hlate, List.append_nil]

/-- In a ROUND pass each member whose count exceeds the passes completed takes one index (R30). -/
theorem placedInPass_one (cs : List Nat) (p : Nat) :
    placedInPass 1 cs p = (List.range cs.length).filter (fun i => decide (p < cs.getD i 0)) := by
  unfold placedInPass
  induction List.range cs.length with
  | nil => rfl
  | cons i l ih =>
    rw [List.flatMap_cons, ih, Nat.one_mul]
    by_cases hi : p < cs.getD i 0
    · rw [Nat.min_eq_left (Nat.sub_pos_of_lt hi), List.filter_cons_of_pos (by simpa using hi)]
      rfl
    · rw [Nat.sub_eq_zero_of_le (Nat.le_of_not_lt hi), List.filter_cons_of_neg (by simpa using hi)]
      rfl

/-! ### What a placement holds -/

theorem length_passTakes (turn j : Nat) (cs : List Nat) :
    (passTakes turn j cs).length = (cs.map (min turn)).sum := by
  induction cs generalizing j with
  | nil => rfl
  | cons c cs ih => simp [passTakes, ih]

theorem count_passTakes_of_lt (turn : Nat) {i j : Nat} (cs : List Nat) (h : i < j) :
    (passTakes turn j cs).count i = 0 := by
  induction cs generalizing j with
  | nil => rfl
  | cons c cs ih => simp [passTakes, List.count_append, List.count_replicate, ih (Nat.lt_succ_of_lt h), h.ne']

theorem count_passTakes (turn : Nat) {i j m : Nat} (cs : List Nat) (hm : m = j + i) :
    (passTakes turn j cs).count m = min turn (cs.getD i 0) := by
  induction cs generalizing i j with
  | nil => simp [passTakes]
  | cons c cs ih =>
    rw [passTakes, List.count_append]
    cases i with
    | zero => simp [hm, count_passTakes_of_lt turn cs (Nat.lt_succ_self j)]
    | succ i =>
      have hother : j ≠ m := by omega
      rw [ih (i := i) (j := j + 1) (by omega), List.count_replicate, if_neg (by simpa using hother), Nat.zero_add,
        List.getD_cons_succ]

/-- One turn and the turns of the passes after it. -/
theorem min_turn_add (turn fuel c : Nat) :
    min turn c + min (turn * fuel) (c - turn) = min (turn * (fuel + 1)) c := by
  rw [Nat.mul_succ]
  omega

theorem length_passes (turn fuel : Nat) (cs : List Nat) :
    (passes turn fuel cs).length = (cs.map (min (turn * fuel))).sum := by
  induction fuel generalizing cs with
  | zero => simp [passes, funext Nat.zero_min]
  | succ fuel ih =>
    simp only [passes, List.length_append, length_passTakes, ih, List.map_map, Function.comp_def,
      ← List.sum_map_add, min_turn_add]

theorem count_passes (turn fuel i : Nat) (cs : List Nat) :
    (passes turn fuel cs).count i = min (turn * fuel) (cs.getD i 0) := by
  induction fuel generalizing cs with
  | zero => simp [passes]
  | succ fuel ih =>
    rw [passes, List.count_append, count_passTakes turn cs (Nat.zero_add i).symm, ih, getD_map_sub, min_turn_add]

/-- A bound that no count exceeds cuts none. -/
theorem map_min_eq_self {n : Nat} {cs : List Nat} (h : cs.sum ≤ n) : cs.map (min n) = cs :=
  (List.map_congr_left fun _ hc => Nat.min_eq_right ((List.le_sum_of_mem hc).trans h)).trans (List.map_id cs)

/-- Every mode places as many indices as the counts sum to, and to each member its count. -/
theorem placement_holds (mode : Stripe) (cs : List Nat) :
    (placement mode cs).length = cs.sum ∧ ∀ i, (placement mode cs).count i = cs.getD i 0 := by
  have hpasses : ∀ turn, 1 ≤ turn → (passes turn cs.sum cs).length = cs.sum
      ∧ ∀ i, (passes turn cs.sum cs).count i = cs.getD i 0 := fun turn ht => by
    have hsum : cs.sum ≤ turn * cs.sum := Nat.le_mul_of_pos_left _ ht
    exact ⟨by rw [length_passes, map_min_eq_self hsum],
      fun i => by rw [count_passes, Nat.min_eq_right ((getD_le_sum cs i).trans hsum)]⟩
  cases mode with
  | contiguous =>
    exact ⟨by rw [placement, length_passTakes, map_min_eq_self le_rfl],
      fun i => by rw [placement, count_passTakes _ cs (Nat.zero_add i).symm, Nat.min_eq_right (getD_le_sum cs i)]⟩
  | round => exact hpasses 1 le_rfl
  | pairs => exact hpasses 2 (by decide)

/-- Settles O48: each mode is passes over the members that end once the largest count is placed (R29 to R31). -/
theorem placementFollowsTheStripeMode : Obligations.PlacementFollowsTheStripeMode := by
  intro cs k c
  refine ⟨?_, ?_, passes_sum_eq cs (by decide), fun mode => ?_⟩
  · have hrun : ∀ i, min cs.sum (cs.getD i 0) = cs.getD i 0 := fun i => Nat.min_eq_right (getD_le_sum cs i)
    simp only [placement, passTakes_eq_flatMap, hrun, Nat.zero_add, k, c]
  · rw [placement, passes_sum_eq cs le_rfl, funext (placedInPass_one cs)]
  · obtain ⟨hlength, hcount⟩ := placement_holds mode cs
    exact ⟨hlength, fun i _ => hcount i⟩

end Sys2Proof.Machine

namespace Sys2Proof.Machine

open Sys2Proof

/-! ### Writing a record again -/

section
variable {α : Type}

theorem tableErase_tableErase (k : Nat) (t : Table α) : tableErase k (tableErase k t) = tableErase k t :=
  tableErase_of_unlisted fun e he => by
    induction t with
    | nil => simp [tableErase] at he
    | cons e' t ih =>
      rw [tableErase] at he
      split at he
      · exact ih he
      · rcases List.mem_cons.1 he with rfl | he
        · assumption
        · exact ih he

theorem tablePut_tablePut (k : Nat) (v : α) (t : Table α) : tablePut k v (tablePut k v t) = tablePut k v t := by
  induction t with
  | nil => simp [tablePut]
  | cons e t ih =>
    obtain ⟨i, w⟩ := e
    rcases Nat.lt_trichotomy k i with hk | rfl | hk
    · simp [tablePut, hk]
    · simp [tablePut]
    · simp [tablePut, hk.not_gt, hk.ne', ih]

/-- Writing the record just written changes nothing. -/
theorem tableSet_tableSet [DecidableEq α] (d : α) (k : Nat) (v : α) (t : Table α) :
    tableSet d k v (tableSet d k v t) = tableSet d k v t := by
  unfold tableSet
  split
  · exact tableErase_tableErase k t
  · exact tablePut_tablePut k v t

end

theorem setGroup_of_groups {g : Nat} {v : Group} {s t : State} (h : t.groups = (setGroup g v s).groups) :
    setGroup g v t = t := by
  have hsame : tableSet {} g v t.groups = t.groups := by
    rw [h]
    exact tableSet_tableSet {} g v s.groups
  rw [setGroup, modGroups, hsame]

/-! ### The depleted set (R40) -/

theorem mem_depleted_updateDepleted (g : Nat) (notify : Bool) (live : Nat) (s : State) :
    g ∈ (updateDepleted g notify live s).twr.depleted ↔ live = 0 := by
  unfold updateDepleted
  split <;> rename_i hlive
  · split
    · simpa [hlive]
    · cases notify <;> simp [hlive, modTwr, mem_setInsert]
  · split
    · cases notify <;> simp [hlive, modTwr, mem_setErase]
    · simpa [hlive]

theorem group_updateDepleted (g x : Nat) (notify : Bool) (live : Nat) (s : State) :
    (updateDepleted g notify live s).group x = s.group x := by
  simp [State.group]

theorem updateDepleted_same {g live : Nat} (notify : Bool) {s : State} (h : g ∈ s.twr.depleted ↔ live = 0) :
    updateDepleted g notify live s = s := by
  by_cases hlive : live = 0 <;> simp [updateDepleted, h, hlive]

/-! ### Groups settled under one liveness (R37 to R39) -/

theorem memberLive_congr {s t : State} (hadjs : t.adjs = s.adjs) (huma : t.uma = s.uma) :
    memberLive t = memberLive s := by
  funext m
  simp only [memberLive, adjLive, uplinkLive, State.adj, State.mon, hadjs, huma]

/-- What a settle makes of a record rests on the adjacencies and the monitors alone. -/
theorem settled_congr {s t : State} (hadjs : t.adjs = s.adjs) (huma : t.uma = s.uma) : settled t = settled s := by
  have hmember := memberLive_congr hadjs huma
  have hlist : liveList t = liveList s := by
    funext ms
    rw [liveList, liveMarks, hmember]
    rfl
  funext r
  rw [settled, hlist, hmember]
  rfl

/-- The live list rests on which adjacency each member names and whether the member is enabled. -/
theorem liveList_eq_of_content {s : State} {ms ms' : List Member}
    (h : ms.map (fun m => (m.adj, m.weight, m.enabled)) = ms'.map (fun m => (m.adj, m.weight, m.enabled))) :
    liveList s ms = liveList s ms' := by
  have hmarks := congrArg (List.map fun x : Nat × Nat × Bool => x.2.2 && adjLive s (s.adj x.1)) h
  rw [List.map_map, List.map_map] at hmarks
  exact congrArg (trueIndices 0) hmarks

theorem liveList_settled (s : State) (r : Group) : liveList s (settled s r).members = liveList s r.members :=
  liveList_eq_of_content (by simp [settled])

/-- A settle of a settled record changes nothing: its marks and its current members are those of the same live list. -/
theorem settled_settled (s : State) (r : Group) : settled s (settled s r) = settled s r := by
  have hmembers : (settled s (settled s r)).members = (settled s r).members := by simp [settled, memberLive]
  have hcount : (settled s (settled s r)).liveCount = (settled s r).liveCount :=
    congrArg List.length (liveList_settled s r)
  have hbuckets : (settled s (settled s r)).buckets = (settled s r).buckets := by
    rw [settled, liveList_settled]
    simp only [settled, List.mapIdx_mapIdx]
    congr 1
    funext b k
    by_cases hhome : k.home ∈ liveList s r.members
    · simp [hhome]
    · cases (liveList s r.members)[b % (liveList s r.members).length]? <;> simp [hhome]
  calc settled s (settled s r)
      = { settled s r with
          members := (settled s (settled s r)).members
          liveCount := (settled s (settled s r)).liveCount
          buckets := (settled s (settled s r)).buckets } := rfl
    _ = settled s r := by rw [hmembers, hcount, hbuckets]

/-- Where a member lives, a settled bucket holds its home member or its substitute, whatever it held (R39). -/
theorem settled_current {s : State} {r : Group} {b : Nat} {k : Bucket} (hlive : liveList s r.members ≠ [])
    (hk : (settled s r).buckets[b]? = some k) :
    k.current = k.home ∨ (liveList s r.members)[b % (liveList s r.members).length]? = some k.current := by
  have hsub : b % (liveList s r.members).length < (liveList s r.members).length :=
    Nat.mod_lt _ (List.length_pos_iff.2 hlive)
  simp only [settled, List.getElem?_mapIdx, Option.map_eq_some_iff] at hk
  obtain ⟨k', -, rfl⟩ := hk
  by_cases hhome : k'.home ∈ liveList s r.members <;> simp [hhome, hsub]

/-- Where a member lives, the current members after a settle are a function of the home members and the live list. -/
theorem settled_currents {s : State} {r : Group} (hlive : liveList s r.members ≠ []) :
    (settled s r).buckets.map (·.current) = (r.buckets.map (·.home)).mapIdx (fun b home =>
      if home ∈ liveList s r.members then home
      else (liveList s r.members).getD (b % (liveList s r.members).length) 0) := by
  refine List.ext_getElem (by simp [settled]) fun b _ _ => ?_
  have hsub : b % (liveList s r.members).length < (liveList s r.members).length :=
    Nat.mod_lt _ (List.length_pos_iff.2 hlive)
  simp [settled, hsub]

/-! ### A settled group (R43) -/

/-- Group `g` stands as a settle leaves it: its record and its place in the depleted set are those the liveness gives,
and a write of the record as it stands changes nothing. -/
structure SettledIn (g : Nat) (s : State) : Prop where
  record : settled s (s.group g) = s.group g
  depleted : g ∈ s.twr.depleted ↔ (s.group g).liveCount = 0
  listed : setGroup g (s.group g) s = s

/-- A settle step of a settled group changes nothing. -/
theorem settleStep_of_settledIn (audit : Bool) {g : Nat} {s : State} (hc : Clean s) (h : SettledIn g s) :
    settleStep audit g s = s := by
  have hrecord : settleRecord audit g s = (false, s) := by
    rw [settleRecord_clean audit g hc]
    simp only [h.record, h.listed, updateDepleted_same _ h.depleted]
    simp [settleChanged]
  rw [settleStep_clean audit g hc, hrecord]
  simp

theorem group_settleRecord (audit : Bool) (g : Nat) {s : State} (h : Clean s) :
    (settleRecord audit g s).2.group g = settled s (s.group g) := by
  rw [settleRecord_clean audit g h, group_updateDepleted, group_setGroup, if_pos rfl]

theorem settleRecord_keeps_clean (audit : Bool) (g : Nat) {s : State} (h : Clean s) :
    Clean (settleRecord audit g s).2 :=
  clean_congr (by simp [settleRecord_clean audit g h]) h

theorem settleRecord_settledIn (audit : Bool) (g : Nat) {s : State} (h : Clean s) :
    SettledIn g (settleRecord audit g s).2 := by
  have hgroup := group_settleRecord audit g h
  have hsettled : settled (settleRecord audit g s).2 = settled s :=
    settled_congr (by simp [settleRecord_clean audit g h]) (by simp)
  refine ⟨by rw [hgroup, hsettled, settled_settled], ?_, ?_⟩ <;> rw [hgroup]
  · rw [settleRecord_clean audit g h]
    exact mem_depleted_updateDepleted g _ _ _
  · exact setGroup_of_groups (s := s) (by simp [settleRecord_clean audit g h])

/-- A publish of a settled group leaves it settled: the revision is no part of what a settle computes (R24, R39). -/
theorem publish_settledIn {g : Nat} {s : State} (hc : Clean s) (h : SettledIn g s) : SettledIn g (publish g s) := by
  have hgroup := group_publish g s g
  rw [if_pos rfl] at hgroup
  have hsettled : settled (publish g s) = settled s := settled_congr (by simp) (by simp)
  refine ⟨?_, ?_, ?_⟩
  · rw [hsettled, hgroup]
    exact congrArg (fun r : Group => { r with revision := ((s.group g).revision + 1) % 65536 }) h.record
  · rw [hgroup]
    simpa using h.depleted
  · rw [hgroup]
    exact setGroup_of_groups (s := s) (by rw [publish, writeUnits_clean _ (clean_congr (by simp [modGroup]) hc)]; rfl)

/-- A settle step leaves an INSTALLED group settled. -/
theorem settleStep_settledIn (audit : Bool) {g : Nat} {s : State} (h : Clean s)
    (hs : (s.group g).status = .installed) : SettledIn g (settleStep audit g s) := by
  have hrecord := settleRecord_settledIn audit g h
  rw [settleStep_clean audit g h, if_pos hs]
  split
  · exact publish_settledIn (settleRecord_keeps_clean audit g h) hrecord
  · exact hrecord

theorem settleStep_keeps_clean (audit : Bool) (g : Nat) {s : State} (h : Clean s) : Clean (settleStep audit g s) := by
  rw [settleStep_clean audit g h]
  have hrecord := settleRecord_keeps_clean audit g h
  split
  · split
    · exact clean_congr (publish_rck g hrecord) hrecord
    · exact hrecord
  · exact h

/-- The buckets a settle step leaves in an INSTALLED group, published or not. -/
theorem buckets_settleStep (audit : Bool) {g : Nat} {s : State} (h : Clean s) (hs : (s.group g).status = .installed) :
    ((settleStep audit g s).group g).buckets = (settled s (s.group g)).buckets := by
  rw [← group_settleRecord audit g h, settleStep_clean audit g h, if_pos hs]
  split
  · rw [group_publish, if_pos rfl]
  · rfl

/-- Settles O49: a settle leaves the group settled, which a second one leaves alone, and what its buckets then hold is a
function of the home members and the live list (R43). -/
theorem settleIsIdempotent : Obligations.SettleIsIdempotent := by
  refine ⟨fun g s h => ?_, fun g s h hs => ?_, fun g k s h hg hk => ?_⟩
  · by_cases hs : (s.group g).status = .installed
    · exact settleStep_of_settledIn false (settleStep_keeps_clean false g h) (settleStep_settledIn false h hs)
    · rw [settleStep_not_installed false g h hs, settleStep_not_installed false g h hs]
  · intro live hlive b k hk
    rw [buckets_settleStep false h hs] at hk
    exact settled_current hlive hk
  · intro content dealt hsame hdg hdk hlive
    obtain ⟨hcount, hstripe, hmembers⟩ : _ ∧ _ ∧ _ := by simpa only [content, Prod.mk.injEq] using hsame
    have hlist := liveList_eq_of_content (s := s) hmembers
    have hweights : (s.group g).members.map (·.weight) = (s.group k).members.map (·.weight) := by
      simpa only [List.map_map, Function.comp_def]
        using congrArg (List.map (fun x : Nat × Nat × Bool => x.2.1)) hmembers
    have hhomes : (s.group g).buckets.map (·.home) = (s.group k).buckets.map (·.home) := by
      simp only [dealt] at hdg hdk
      rw [hdg, hdk, hcount, hstripe, hweights]
    rw [buckets_settleStep false h hg, buckets_settleStep false h hk, settled_currents hlive,
      settled_currents (hlist ▸ hlive), hhomes, hlist]

end Sys2Proof.Machine

namespace Sys2Proof.Machine

open Sys2Proof

/-! ### A read makes no adjacency VALID and changes no VALID record (R153, R157) -/

/-- Each adjacency that is VALID in `t` has there the record it has in `s`. Reads through record check keep this: a
finding changes an adjacency by making it DAMAGED. -/
def ValidAdjsFrom (s t : State) : Prop := ∀ x, (t.adj x).status = .valid → t.adj x = s.adj x

theorem ValidAdjsFrom.trans {s t u : State} (hst : ValidAdjsFrom s t) (htu : ValidAdjsFrom t u) :
    ValidAdjsFrom s u := by
  intro x hx
  have hut := htu x hx
  rw [hut] at hx
  exact hut.trans (hst x hx)

theorem validAdjsFrom_of_adjs {s t : State} (h : t.adjs = s.adjs) : ValidAdjsFrom s t :=
  fun _ _ => by rw [State.adj, h, State.adj]

theorem validAdjsFrom_refl (s : State) : ValidAdjsFrom s s := fun _ _ => rfl

/-- An operation that keeps the adjacency table may follow. -/
theorem ValidAdjsFrom.congr {s t u : State} (h : ValidAdjsFrom s t) (hu : u.adjs = t.adjs) : ValidAdjsFrom s u :=
  h.trans (validAdjsFrom_of_adjs hu)

theorem validAdjsFrom_forEach {f : Nat → State → State} (h : ∀ n s, ValidAdjsFrom s (f n s)) (l : List Nat)
    (s : State) : ValidAdjsFrom s (forEach l f s) := by
  induction l generalizing s with
  | nil => exact validAdjsFrom_refl s
  | cons n l ih => exact (h n s).trans (ih (f n s))

theorem validAdjsFrom_damaged (a : Nat) (s : State) :
    ValidAdjsFrom s (modAdj a (fun r => { r with status := .damaged }) s) := by
  intro x hx
  rw [modAdj, adj_setAdj] at hx ⊢
  split at hx
  · cases hx
  next hne => rw [if_neg hne]

theorem validAdjsFrom_markAdjDamaged (a : Nat) (s : State) : ValidAdjsFrom s (markAdjDamaged a s) :=
  (validAdjsFrom_damaged a s).congr (by simp [markAdjDamaged])

theorem validAdjsFrom_degrade (f : DupField) (s : State) : ValidAdjsFrom s (degrade f s) := by
  cases f with
  | groupStatus g => exact validAdjsFrom_of_adjs (by simp [degrade])
  | groupRevision g => exact validAdjsFrom_of_adjs (by simp [degrade])
  | groupBackup g => exact validAdjsFrom_of_adjs (by simp [degrade])
  | groupReferrers g => exact validAdjsFrom_of_adjs (by rw [degrade]; split <;> simp)
  | memberLink g i => exact validAdjsFrom_of_adjs (by rw [degrade]; split <;> simp)
  | adjStatus a =>
    rw [degrade]
    split
    · exact validAdjsFrom_refl s
    · exact (validAdjsFrom_damaged a s).congr (by simp)
  | adjRefs a =>
    rw [degrade]
    split
    · exact validAdjsFrom_refl s
    · exact validAdjsFrom_markAdjDamaged a s

theorem validAdjsFrom_fieldLost (f : DupField) (s : State) : ValidAdjsFrom s (fieldLost f s) := by
  have hdegrade : ∀ t : State, t.adjs = s.adjs → ValidAdjsFrom s (raise rankIntegrity (degrade f t)) := fun t ht =>
    ((validAdjsFrom_of_adjs ht).trans (validAdjsFrom_degrade f t)).congr (by simp)
  exact hdegrade _ rfl

theorem adjs_of_readUnit {u : RecUnit} {s t : State} {ok : Bool} (h : readUnit u s = (ok, t)) : t.adjs = s.adjs := by
  have hframe : (readUnit u s).2.adjs = s.adjs := by simp
  rwa [h] at hframe

theorem validAdjsFrom_readField {f : DupField} {s t : State} {ok : Bool} (h : readField f s = (ok, t)) :
    ValidAdjsFrom s t := by
  unfold readField at h
  split at h
  · obtain ⟨-, rfl⟩ := Prod.mk.inj h
    exact validAdjsFrom_refl s
  split at h
  next hfirst =>
    obtain ⟨-, rfl⟩ := Prod.mk.inj h
    exact validAdjsFrom_of_adjs (adjs_of_readUnit hfirst)
  next hfirst =>
    have hfirst := validAdjsFrom_of_adjs (adjs_of_readUnit hfirst)
    split at h
    next hsecond =>
      obtain ⟨-, rfl⟩ := Prod.mk.inj h
      exact hfirst.congr (by simpa using adjs_of_readUnit hsecond)
    next hsecond =>
      obtain ⟨-, rfl⟩ := Prod.mk.inj h
      exact (hfirst.congr (adjs_of_readUnit hsecond)).trans (validAdjsFrom_fieldLost f _)

theorem validAdjsFrom_readFields {l : List DupField} {s t : State} {ok : Bool} (h : readFields false l s = (ok, t)) :
    ValidAdjsFrom s t := by
  induction l generalizing s with
  | nil =>
    obtain ⟨-, rfl⟩ := Prod.mk.inj h
    exact validAdjsFrom_refl s
  | cons f l ih =>
    unfold readFields at h
    split at h
    next hread => exact (validAdjsFrom_readField hread).trans (ih h)
    next hread =>
      obtain ⟨-, rfl⟩ := Prod.mk.inj h
      exact validAdjsFrom_readField hread

theorem validAdjsFrom_readAdjContent (a : Nat) (s : State) : ValidAdjsFrom s (readAdjContent a s) := by
  unfold readAdjContent
  split
  · exact validAdjsFrom_refl s
  split
  next hread => exact validAdjsFrom_of_adjs (adjs_of_readUnit hread)
  next hread =>
    exact ((validAdjsFrom_of_adjs (adjs_of_readUnit hread)).trans (validAdjsFrom_markAdjDamaged a _)).congr
      (by simp [adjUncorrectable])

theorem validAdjsFrom_readAdj (a : Nat) (s : State) : ValidAdjsFrom s (readAdj false a s) :=
  (validAdjsFrom_readFields (l := [.adjStatus a, .adjRefs a]) rfl).trans (validAdjsFrom_readAdjContent a _)

theorem validAdjsFrom_readHeaderWith (fs : List DupField) (g : Nat) (s : State) :
    ValidAdjsFrom s (readHeaderWith false fs g s) := by
  have hfields : ValidAdjsFrom s (readFields false fs s).2 := validAdjsFrom_readFields rfl
  unfold readHeaderWith
  dsimp only
  split
  · split
    next hread => exact hfields.congr (adjs_of_readUnit hread)
    next hread => exact hfields.congr (by simpa using adjs_of_readUnit hread)
  · exact hfields

theorem validAdjsFrom_readMember (g i : Nat) (s : State) : ValidAdjsFrom s (readMember false g i s) := by
  unfold readMember
  split
  · split
    next hlink => exact validAdjsFrom_readField hlink
    next hlink =>
      have hlink := validAdjsFrom_readField hlink
      split
      next hread => exact hlink.congr (adjs_of_readUnit hread)
      next hread => exact hlink.congr (by simpa using adjs_of_readUnit hread)
  · exact validAdjsFrom_refl s

theorem validAdjsFrom_readMembers (g : Nat) (s : State) : ValidAdjsFrom s (readMembers false g s) :=
  validAdjsFrom_forEach (validAdjsFrom_readMember g) _ s

theorem validAdjsFrom_readMemberAdjs (g : Nat) (s : State) : ValidAdjsFrom s (readMemberAdjs false g s) :=
  validAdjsFrom_forEach validAdjsFrom_readAdj _ s

theorem validAdjsFrom_readBucket (g b : Nat) (s : State) : ValidAdjsFrom s (readBucket g b s).2 :=
  validAdjsFrom_of_adjs (by simp)

/-- What the reads of a serving group leave, and the live list they answer with: that of the state they leave (R50). -/
theorem readServed_cases {asBackup : Bool} {x hash : Nat} {s t : State} {o : Option Served}
    (h : readServed asBackup x hash s = (o, t)) :
    ValidAdjsFrom s t ∧ ∀ v, o = some v → v.live = liveList t (t.group x).members := by
  have hheader := validAdjsFrom_readHeaderWith (servedFields asBackup x) x s
  unfold readServed at h
  dsimp only at h
  split at h
  · have hmembers := fun b =>
      (hheader.trans (validAdjsFrom_readBucket x b _)).trans (validAdjsFrom_readMembers x _)
    split at h
    · obtain ⟨rfl, rfl⟩ := Prod.mk.inj h
      refine ⟨(hmembers _).trans (validAdjsFrom_readMemberAdjs x _), fun v hv => ?_⟩
      rw [← Option.some.inj hv]
    · obtain ⟨rfl, rfl⟩ := Prod.mk.inj h
      exact ⟨hmembers _, nofun⟩
  · obtain ⟨rfl, rfl⟩ := Prod.mk.inj h
    exact ⟨hheader, nofun⟩

/-! ### The member a bucket step chooses is live (R34, R52) -/

theorem adjLive_iff (s : State) (a : Adj) :
    adjLive s a = true ↔ a.status = .valid ∧ (a.uplink = none ∨ ∃ u, a.uplink = some u ∧ uplinkLive s u = true) := by
  unfold adjLive
  cases a.status <;> cases a.uplink <;> simp

theorem mem_live_of_bucketStep {v : Served} {i : Nat} {sub : Bool} (h : bucketStep v = some (i, sub)) : i ∈ v.live := by
  have hsubstitute : ∀ b : Bool, (substitute v.live v.bucket).map (fun i => (i, b)) = some (i, sub) → i ∈ v.live := by
    intro b hb
    obtain ⟨j, hj, heq⟩ := Option.map_eq_some_iff.mp hb
    obtain ⟨rfl, -⟩ := Prod.mk.inj heq
    exact List.mem_of_getElem? hj
  unfold bucketStep at h
  split at h
  · split at h
    next hlive =>
      obtain ⟨rfl, -⟩ := Prod.mk.inj (Option.some.inj h)
      exact hlive
    · exact hsubstitute _ h
  · exact hsubstitute _ h

theorem adjLive_of_mem_liveList {s : State} {ms : List Member} {i : Nat} (h : i ∈ liveList s ms) :
    adjLive s (s.adj ((ms[i]?.map (·.adj)).getD 0)) = true := by
  rw [mem_liveList, liveMarks, List.getD_eq_getElem?_getD, List.getElem?_map] at h
  cases hm : ms[i]? with
  | none => simp [hm] at h
  | some m =>
    have hlive : memberLive s m = true := by simpa [hm] using h
    exact (Bool.and_eq_true_iff.mp hlive).2

/-! ### A derived FORWARD answer names a live adjacency (R58) -/

/-- A derivation from `s` that ended in `o.2` with answer `o.1`: no VALID record moved, and a FORWARD answer carries the
port and rewrite index of an adjacency live at its end. -/
def LiveForward (s : State) (o : Derived × State) : Prop :=
  ValidAdjsFrom s o.2
    ∧ (o.1.content.verdict = .forward → ∃ x, adjLive o.2 (o.2.adj x) = true
        ∧ o.1.content.port = (o.2.adj x).port ∧ o.1.content.rewrite = (o.2.adj x).rewrite)

/-- Reads that precede a derivation. -/
theorem LiveForward.after {s t : State} {o : Derived × State} (ht : LiveForward t o) (hst : ValidAdjsFrom s t) :
    LiveForward s o :=
  ⟨hst.trans ht.1, ht.2⟩

theorem liveForward_of_noMember (g : Nat) {v : Verdict} (r : AnsReason) (revision : Nat) (passed : List Nat) (s : State)
    (hv : v ≠ .forward) :
    LiveForward s ({ content := noMember g v r revision, supplier := none, passed := passed }, s) :=
  ⟨validAdjsFrom_refl s, fun h => absurd h hv⟩

theorem liveForward_damagedAnswer (g : Nat) (passed : List Nat) (s : State) :
    LiveForward s (damagedAnswer g passed s) := by
  unfold damagedAnswer
  split
  next hread => exact (liveForward_of_noMember g _ _ _ _ (by decide)).after (validAdjsFrom_readField hread)

theorem liveForward_emptyVerdict (g : Nat) (passed : List Nat) (s : State) :
    LiveForward s (emptyVerdict g passed s, s) :=
  liveForward_of_noMember g _ _ _ s (by cases (s.group g).policy <;> decide)

/-- The answer from the member that a bucket step of a serving group chose. -/
theorem liveForward_forwardFrom {asBackup : Bool} {x hash : Nat} {s t : State} {v : Served} {i : Nat} {sub : Bool}
    (group : Nat) (bak : Bool) (passed : List Nat) (hread : readServed asBackup x hash s = (some v, t))
    (hstep : bucketStep v = some (i, sub)) : LiveForward s (forwardFrom group x i sub bak passed t, t) := by
  obtain ⟨hvalid, hserved⟩ := readServed_cases hread
  refine ⟨hvalid, fun _ => ⟨_, adjLive_of_mem_liveList (i := i) ?_, rfl, rfl⟩⟩
  exact hserved v rfl ▸ mem_live_of_bucketStep hstep

theorem validAdjsFrom_backupInstalled {b : Nat} {s t : State} {ok : Bool} (h : backupInstalled b s = (ok, t)) :
    ValidAdjsFrom s t := by
  obtain ⟨-, rfl⟩ := Prod.mk.inj h
  exact validAdjsFrom_readField rfl

theorem liveForward_deriveDamaged (g hash : Nat) (s : State) : LiveForward s (deriveDamaged g hash s) := by
  unfold deriveDamaged
  split
  next hlink => exact (liveForward_damagedAnswer g [] _).after (validAdjsFrom_readField hlink)
  next hlink =>
    refine LiveForward.after ?_ (validAdjsFrom_readField hlink)
    split
    · exact liveForward_damagedAnswer g [] _
    split
    next hbackup => exact (liveForward_damagedAnswer g [] _).after (validAdjsFrom_backupInstalled hbackup)
    next hbackup =>
      refine LiveForward.after ?_ (validAdjsFrom_backupInstalled hbackup)
      split
      next hread => exact (liveForward_damagedAnswer g [] _).after (readServed_cases hread).1
      next hread =>
        split
        next hstep => exact liveForward_forwardFrom g true _ hread hstep
        · exact (liveForward_damagedAnswer g _ _).after (readServed_cases hread).1

theorem liveForward_deriveBackup (g hash : Nat) (passed : List Nat) (s : State) :
    LiveForward s (deriveBackup g hash passed s) := by
  unfold deriveBackup
  split
  · exact liveForward_emptyVerdict g passed s
  split
  next hbackup => exact (liveForward_emptyVerdict g passed _).after (validAdjsFrom_backupInstalled hbackup)
  next hbackup =>
    refine LiveForward.after ?_ (validAdjsFrom_backupInstalled hbackup)
    split
    next hread => exact (liveForward_emptyVerdict g passed _).after (readServed_cases hread).1
    next hread =>
      split
      next hstep => exact liveForward_forwardFrom g true _ hread hstep
      · exact (liveForward_emptyVerdict g _ _).after (readServed_cases hread).1

theorem liveForward_derive (g hash : Nat) (s : State) : LiveForward s (derive g hash s) := by
  unfold derive
  split
  · exact liveForward_of_noMember g _ _ _ s (by decide)
  split
  next hstatus =>
    refine LiveForward.after ?_ (validAdjsFrom_readField hstatus)
    split
    · split
      next hrevision =>
        exact (liveForward_of_noMember g _ _ _ _ (by decide)).after (validAdjsFrom_readField hrevision)
      next hrevision => exact (liveForward_deriveDamaged g hash _).after (validAdjsFrom_readField hrevision)
    · exact liveForward_deriveDamaged g hash _
    · split
      next hread => exact (liveForward_deriveDamaged g hash _).after (readServed_cases hread).1
      next hread =>
        split
        next hstep => exact liveForward_forwardFrom g false _ hread hstep
        · exact (liveForward_deriveBackup g hash _ _).after (readServed_cases hread).1

/-! ### The request as a row (R46, R60) -/

/-- Liveness is decided by the monitors, which no read of a derivation moves. -/
theorem uplinkLive_derive (g hash u : Nat) (s : State) : uplinkLive (derive g hash s).2 u = uplinkLive s u := by
  simp [uplinkLive, State.mon]

theorem adjs_takeRequest (tag : Byte) (g hash : Nat) (s : State) :
    (takeRequest tag g hash s).adjs = (derive g hash s).2.adjs := by
  simp [takeRequest]

/-- The answer queue after a request: the derived answer under its tag joins the tail (R48). -/
theorem answers_takeRequest (tag : Byte) (g hash : Nat) (s : State) :
    (takeRequest tag g hash s).rsu.answers
      = s.rsu.answers ++ [{ tag := tag, content := (derive g hash s).1.content }] := by
  have hcount : ∀ us t, (countPassed us t).rsu.answers = t.rsu.answers := fun us t =>
    forEach_keeps (fun t => t.rsu.answers) us.dedup
      (fun u s => setSubstitution u (sat32 (s.substitution u + 1)) s) (fun _ _ => rfl) t
  simp [takeRequest, hcount]

/-- RESOLVE_REQ against a credit, by what it leaves of the answer queue and the adjacency table (R46, R184). -/
theorem exec_resolveReq_taken (tag : Byte) (group hash : Half) {s : State} (hlink : s.fsl.link = .active)
    (hcredits : s.fsl.credits ≠ 0) :
    ∃ t, exec (.resolveReq tag group hash) s = .next t
      ∧ t.adjs = (derive group.toNat hash.toNat (spendCredit (goodMessage s))).2.adjs
      ∧ t.rsu.answers = s.rsu.answers ++
        [{ tag := tag, content := (derive group.toNat hash.toNat (spendCredit (goodMessage s))).1.content }] := by
  refine ⟨event (admitRequest tag group.toNat hash.toNat) s, ?_, ?_, ?_⟩
  · show execResolveReq tag group hash s = _
    rw [execResolveReq, if_pos hlink, if_neg hcredits]
  · simp [event, admitRequest, adjs_takeRequest]
  · simp [event, admitRequest, answers_takeRequest]

/-- Settles O50: the answer's member is live where the derivation ends, and an adjacency that is VALID there has the
record it had at the request, because record check changes an adjacency only by making it DAMAGED (R58, R153). -/
theorem forwardAnswersNameALiveAdjacency : Obligations.ForwardAnswersNameALiveAdjacency := by
  intro tag group hash s a hlink hcredits
  obtain ⟨t, hexec, hadjs, hanswers⟩ := exec_resolveReq_taken tag group hash hlink hcredits
  refine ⟨t, hexec, fun hqueued hforward => ?_⟩
  obtain rfl : _ = a := List.singleton_injective (List.append_cancel_left (hanswers.symm.trans hqueued))
  obtain ⟨hvalid, hnamed⟩ := liveForward_derive group.toNat hash.toNat (spendCredit (goodMessage s))
  obtain ⟨x, hlive, hport, hrewrite⟩ := hnamed hforward
  obtain ⟨hstatus, huplink⟩ := (adjLive_iff _ _).mp hlive
  have hsame : (derive group.toNat hash.toNat (spendCredit (goodMessage s))).2.adj x = s.adj x :=
    (hvalid x hstatus).trans (by simp [State.adj])
  have hafter : t.adj x = s.adj x := by rw [← hsame, State.adj, hadjs, State.adj]
  have huplinks : ∀ u, uplinkLive (spendCredit (goodMessage s)) u = uplinkLive s u := by simp [uplinkLive, State.mon]
  simp only [hsame, uplinkLive_derive, huplinks] at hstatus huplink hport hrewrite
  exact ⟨x, hafter ▸ hstatus, hstatus, huplink, hport, hrewrite⟩

end Sys2Proof.Machine

namespace Sys2Proof.Machine

open Sys2Proof

/-! ### The target of an evidence command (R107, checks 1 and 2) -/

theorem targetOf_eq_none {target index : Byte}
    (h : 2 ≤ target.toNat ∨ (target = 0 ∧ 16 ≤ index.toNat) ∨ (target = 1 ∧ 128 ≤ index.toNat)) :
    targetOf target index = none := by
  obtain h | ⟨rfl, h⟩ | ⟨rfl, h⟩ := h
  · rw [targetOf, if_neg (by omega), if_neg (by omega)]
  · exact if_neg (Nat.not_lt.2 h)
  · exact if_neg (Nat.not_lt.2 h)

theorem targetOf_zero {index : Byte} (h : index.toNat < 16) : targetOf 0 index = some .line := if_pos h

theorem targetOf_one {index : Byte} (h : index.toNat < 128) : targetOf 1 index = some .port := if_pos h

/-! ### EVIDENCE_WRITE (R107) -/

/-- A line whose fields are rewritten by `f`, as each line reads afterwards. -/
theorem line_setLine_map (l k : Nat) (f : Line → Line) (s : State) :
    (setLine l (f (s.line l)) s).line k = if k = l then f (s.line k) else s.line k := by
  rw [line_setLine]
  split
  next hk => rw [hk]
  next => rfl

/-- A port whose fields are rewritten by `f`, as each port reads afterwards. -/
theorem port_setPort_map (p k : Nat) (f : Port → Port) (s : State) :
    (setPort p (f (s.port p)) s).port k = if k = p then f (s.port k) else s.port k := by
  rw [port_setPort]
  split
  next hk => rw [hk]
  next => rfl

section

variable {target index : Byte} (assertFilter clearFilter guardTime : Half) {s : State}

theorem performEvidenceWrite_none (h : targetOf target index = none) :
    performEvidenceWrite target index assertFilter clearFilter guardTime s = refuse .range s := by
  rw [performEvidenceWrite, h]

theorem performEvidenceWrite_line (h : targetOf target index = some .line) :
    performEvidenceWrite target index assertFilter clearFilter guardTime s =
      let a := storedAssert assertFilter.toNat
      let c := storedClear clearFilter.toNat
      { clamped := decide (a ≠ assertFilter.toNat ∨ c ≠ clearFilter.toNat)
        result := .lineSet a c
        state := setLine index.toNat { s.line index.toNat with assertFilter := a, clearFilter := c } s } := by
  rw [performEvidenceWrite, h]
  simp only [Bool.decide_or]

theorem performEvidenceWrite_port (h : targetOf target index = some .port) :
    performEvidenceWrite target index assertFilter clearFilter guardTime s =
      let q := storedGuard guardTime.toNat
      { clamped := decide (q ≠ guardTime.toNat)
        result := .portSet q
        state := setPort index.toNat { s.port index.toNat with guardTime := q } s } := by
  rw [performEvidenceWrite, h]

end

/-- The walker's choice reads nothing of the evidence unit (R137). -/
theorem served_of_evu {s : State} (hw : WalkerServed s) (e : Evu) : WalkerServed { s with evu := e } :=
  served_congr hw rfl rfl rfl rfl fun _ => rfl

/-- The row of a command that leaves the part as it was but for the evidence unit's registers: it raises nothing and
gives the walker no work, so its response follows at once. -/
theorem readRow_performs_of_evu {tag : Half} {c : HostCmd} {s : State} {o : CmdOut} {P : State → Prop}
    (h : isTable c = false) (he : EngineFree s) (hf : c.fits = true) (hw : WalkerServed s) (ho : perform c s = o)
    (hrest : o.state = { s with evu := o.state.evu }) (hP : P o.state) :
    Performs (rowOf tag c) P (fun _ => responseOf tag c.code o) s := by
  have hserved : WalkerServed o.state := hrest ▸ served_of_evu hw o.state.evu
  have hsources : o.state.nfu.sources = s.nfu.sources := by rw [hrest]
  exact ⟨o.state, _, readRow_quiet tag c s _ _ h he hf (by rw [ho]) (by rw [ho]) hserved hsources, hP,
    placeResponse_responded _ _⟩

/-- Settles O17: the target is a named line, a named port or none, and a line or port that is written keeps every field
but its times, so a timer that runs keeps its expiry (R107). -/
theorem evidenceWriteStoresClampedTimes : Obligations.EvidenceWriteStoresClampedTimes := by
  intro tag target index assertFilter clearFilter guardTime s he hw i a c q
  refine ⟨fun hnone => ?_, fun htarget hline => ?_, fun htarget hport => ?_⟩
  · have ho := performEvidenceWrite_none assertFilter clearFilter guardTime (s := s) (targetOf_eq_none hnone)
    exact readRow_answers tag (.evidenceWrite target index assertFilter clearFilter guardTime) s _ rfl he rfl hw
      (congrArg CmdOut.state ho) (congrArg (responseOf tag 0x38) ho)
  · subst htarget
    exact readRow_performs_of_evu (c := .evidenceWrite 0 index assertFilter clearFilter guardTime) rfl he rfl hw
      (performEvidenceWrite_line assertFilter clearFilter guardTime (targetOf_zero hline)) rfl
      ⟨rfl, rfl, fun k => line_setLine_map index.toNat k ({ · with assertFilter := a, clearFilter := c }) s⟩
  · subst htarget
    exact readRow_performs_of_evu (c := .evidenceWrite 1 index assertFilter clearFilter guardTime) rfl he rfl hw
      (performEvidenceWrite_port assertFilter clearFilter guardTime (targetOf_one hport)) rfl
      ⟨rfl, rfl, fun k => port_setPort_map index.toNat k ({ · with guardTime := q }) s⟩

end Sys2Proof.Machine
